-- ==== Sys2Proof/Word.lean ====
section
/-! DEFINITION. The two word types of the machine (spec/00_scope.md R7, R8): a byte is what the data bus, the
registers A, X, Y, SP and the status image hold, a word is what PC and every address hold. -/

namespace Sys2Proof

/-- `u8` of R8: an unsigned value of 8 bits; `+` and `-` wrap modulo 2^8. -/
abbrev Byte := BitVec 8

/-- `u16` of R8: an unsigned value of 16 bits; `+` and `-` wrap modulo 2^16. -/
abbrev Word := BitVec 16

end Sys2Proof
end

