-- ==== Sys2Proof/Machine/Bits.lean ====
section
/-! DEFINITION. Widening and byte-order helpers of spec/00_scope.md R9 and spec/20_memory.md R63. -/

namespace Sys2Proof.Machine

/-- `zext_16(v)` of R9: `v` widened to 16 bits with zero high byte. -/
def zext16 (v : Byte) : Word := v.setWidth 16

/-- `sext_16(v)` of R9: the 8-bit `v` read as two's complement and widened to 16 bits. -/
def sext16 (v : Byte) : Word := if v.msb then 0xFF00 ||| zext16 v else zext16 v

/-- `hi ++ lo` of R8 with `hi` in the high bits: the word whose low byte stands at the lower address (R63). -/
def joinBytes (lo hi : Byte) : Word := hi ++ lo

/-- `w[7:0]` of R8. -/
def lowByte (w : Word) : Byte := w.setWidth 8

/-- `w[15:8]` of R8. -/
def highByte (w : Word) : Byte := (w >>> 8).setWidth 8

end Sys2Proof.Machine
end

