-- ==== Sys2Proof/Config.lean ====
section
/-! DEFINITION. What this hardware fixes (spec/00_scope.md R7) and the one value the spec leaves OPEN. The parameters
the machine takes as arguments, and their values for this hardware, stand in Machine/Params.lean. -/

namespace Sys2Proof

/-- `PC_POWER_ON` (R7, R40, D12): PC after construction and before the first `reset()`. A FREE VALUE: it has no
body, so nothing can be proved of it. UNVERIFIED by design, safe: log entry 5. -/
opaque Config.pcPowerOn : Word

/-- What a byte of memory reads as when nothing has written it. The spec leaves the contents at construction
unspecified (D20). DESIGN CHOICE, unsafe: log entry 1. -/
def Config.unlistedByte : Byte := 0x00

/-- Address of the low byte of the reset vector (R7, 20_memory.md R69). -/
def Config.resetVector : Word := 0xFFFC

/-- Address of the low byte of the BRK vector (R7, 20_memory.md R70). -/
def Config.brkVector : Word := 0xFFFE

/-- First address of the stack page, page 1 (R7, 20_memory.md R68). -/
def Config.stackPage : Word := 0x0100

end Sys2Proof
end

