-- ==== Sys2Proof/Machine/State.lean ====
section
/-! DEFINITION. The state of the core and its memory as plain data (spec/10_state.md R20-R41, spec/20_memory.md R61,
R62), the reasons a step could stop, and the machine after reset. -/

namespace Sys2Proof.Machine

/-- The status register P as its eight one-bit flags (R25); R26 allows this form with the derived byte view, which
is `Flags.toByte` and `Flags.ofByte` in Machine/Flags.lean. -/
structure Flags where
  c : Bool   -- bit 0, Carry (R27)
  z : Bool   -- bit 1, Zero (R28)
  i : Bool   -- bit 2, Interrupt-Disable (R29)
  d : Bool   -- bit 3, Decimal (R30)
  b : Bool   -- bit 4, Break (R31)
  u : Bool   -- bit 5, Unused (R32)
  v : Bool   -- bit 6, Overflow (R33)
  n : Bool   -- bit 7, Negative (R34)
  deriving DecidableEq, Repr

/-- The collaborator's 65536 bytes (20_memory.md R62): the bytes that differ from `Config.unlistedByte`, by strictly
rising address. `Memory.wf` in Machine/Ops.lean says the form. -/
abbrev Memory := List Host.Cell

/-- What `step()` returns to the host (40_dispatch_addressing.md R122). -/
inductive StepResult where
  /-- The opcode was recognised and its instruction executed. -/
  | ok
  /-- The opcode byte is illegal; `addr` is the address it was fetched from (60_exceptions.md R330, D16). -/
  | illegalOpcode (byte : Byte) (addr : Word)
  deriving DecidableEq, Repr

/-- One transaction on the memory bus with the byte it carried (00_scope.md R5, 20_memory.md R60). -/
inductive BusAccess where
  /-- `MemRead(addr, 1)`, which returned `value`. -/
  | read (addr : Word) (value : Byte)
  /-- `MemWrite(addr, 1, value)`. -/
  | write (addr : Word) (value : Byte)
  deriving DecidableEq, Repr

/-- Everything the spec gives the machine (R35), the memory beside it, and the model's own two fields that hold what
the last call showed outside. -/
structure State where
  a : Byte
  x : Byte
  y : Byte
  sp : Byte
  pc : Word
  p : Flags
  mem : Memory
  /-- The model's own: the result of the last `step()` or `reset()` call (R122). No instruction reads it. Log entry 3. -/
  lastResult : StepResult
  /-- The model's own: the bus transactions of the last `step()` or `reset()` call, oldest first (R78). No
  instruction reads it. Log entry 4. -/
  bus : List BusAccess
  deriving DecidableEq, Repr

/-- Why a step stops with a fault. NO constructor: the core raises no exception of its own (60_exceptions.md R331) and
no access can fail (R332), so nothing raises one. Neither safe nor unsafe: there is no such stop. -/
inductive Fault where
  deriving DecidableEq, Repr

/-- Why an instruction has no meaning. -/
inductive Refusal where
  /-- The dispatcher's answer for an instruction the model gives no meaning. No arm raises it in this model: every
  row of the opcode table has its meaning. Safe. -/
  | notModelled (mnemonic : String)
  deriving DecidableEq, Repr

/-- The answer of a meaning and of a step. -/
abbrev Result := Host.Outcome State Fault Refusal

/-- P = 0x34 (R40, R41): C=0 Z=0 I=1 D=0 B=1 U=1 V=0 N=0. -/
def Flags.initial : Flags :=
  { c := false, z := false, i := true, d := false, b := true, u := true, v := false, n := false }

/-- A constructed core beside a memory (R40, 70_reset_and_hazards.md R360): SP is 0xFD, PC is open. -/
def State.powerOn (mem : Memory) : State :=
  { a := 0x00, x := 0x00, y := 0x00, sp := 0xFD, pc := Config.pcPowerOn, p := Flags.initial, mem := mem,
    lastResult := .ok, bus := [] }

/-- The machine right after `reset()` (R41, R361) with nothing listed in memory: both bytes of the reset vector read
as `Config.unlistedByte`, and the two vector reads are the call's bus transactions. Log entries 1, 3, 4, 8. -/
def State.reset : State :=
  { a := 0x00, x := 0x00, y := 0x00, sp := 0xFF, pc := Config.unlistedByte ++ Config.unlistedByte,
    p := Flags.initial, mem := [], lastResult := .ok,
    bus := [.read Config.resetVector Config.unlistedByte, .read (Config.resetVector + 1) Config.unlistedByte] }

end Sys2Proof.Machine
end

