-- ==== Sys2Proof/Machine/Flags.lean ====
section
/-! DEFINITION. `status_flag_unit` (spec/10_state.md R25, R26, R36) and the flag updates of spec/41_alu.md. -/

namespace Sys2Proof.Machine

/-- The packed byte of R26: N<<7 | V<<6 | U<<5 | B<<4 | D<<3 | I<<2 | Z<<1 | C. -/
def Flags.toByte (f : Flags) : Byte :=
  (BitVec.ofBool f.n ++ BitVec.ofBool f.v ++ BitVec.ofBool f.u ++ BitVec.ofBool f.b ++
    BitVec.ofBool f.d ++ BitVec.ofBool f.i ++ BitVec.ofBool f.z ++ BitVec.ofBool f.c : BitVec 8)

/-- `P <- v` of R26: each flag takes the bit of `v` at its position, no bit forced. -/
def Flags.ofByte (v : Byte) : Flags :=
  { c := v.getLsbD 0, z := v.getLsbD 1, i := v.getLsbD 2, d := v.getLsbD 3,
    b := v.getLsbD 4, u := v.getLsbD 5, v := v.getLsbD 6, n := v.getLsbD 7 }

/-- `PushImage(P)` of R36: P with B and U forced to 1. -/
def Flags.pushImage (f : Flags) : Byte := f.toByte ||| 0x30

/-- `PlpLoad(v)` of R36: PLP clears Break and Unused after the pull. -/
def Flags.plpLoad (v : Byte) : Flags := Flags.ofByte (v &&& 0xCF)

/-- `RtiLoad(v)` of R36: RTI does not force-clear Break and Unused. -/
def Flags.rtiLoad (v : Byte) : Flags := Flags.ofByte v

/-- `SetNZ(r)` of 41_alu.md R150. -/
def Flags.setNZ (f : Flags) (r : Byte) : Flags := { f with n := r.msb, z := r == 0 }

/-- The flags of ADC and SBC (R204, R205): C and V as the ALU gives them, N and Z from the result. -/
def Flags.setArith (f : Flags) (r : Byte) (c v : Bool) : Flags := { f.setNZ r with c := c, v := v }

/-- The flags of a shift, a rotate or a compare: C as given, N and Z from the result (R153, R236-R243). -/
def Flags.setCNZ (f : Flags) (c : Bool) (r : Byte) : Flags := { f.setNZ r with c := c }

/-- `BitTest(a, m)` of R155: Z from `a & m`, N and V from bits 7 and 6 of `m`. -/
def Flags.bitTest (f : Flags) (a m : Byte) : Flags :=
  { f with z := (a &&& m) == 0, n := m.getLsbD 7, v := m.getLsbD 6 }

end Sys2Proof.Machine
end

