-- ==== Sys2Proof/Machine/Memory.lean ====
section
/-! DEFINITION. The memory collaborator (spec/20_memory.md R60, R61): what any collaborator is, the ideal RAM, which is
the spec's default, and the clamping store of the reference. -/

namespace Sys2Proof.Machine

/-! ### The bytes of the ideal RAM -/

/-- The byte at an address: the one listed, or `Config.unlistedByte` (R61). -/
def Memory.read : Memory → Nat → Byte
  | [], _ => Config.unlistedByte
  | (k, v) :: rest, a => if k = a then v else Memory.read rest a

/-- A cell in front of the cells above it, left out where it holds what an unlisted address reads as. -/
def Memory.place (a : Nat) (v : Byte) (rest : Memory) : Memory :=
  if v = Config.unlistedByte then rest else (a, v) :: rest

/-- The memory after a byte is written (R61), in canonical form if it was. -/
def Memory.write : Memory → Nat → Byte → Memory
  | [], a, v => Memory.place a v []
  | (k, w) :: rest, a, v =>
    if a < k then Memory.place a v ((k, w) :: rest)
    else if a = k then Memory.place a v rest
    else (k, w) :: Memory.write rest a v

/-- Addresses at least `lo`, strictly rising, inside the 65536-byte space (R62), no cell that could be left out. -/
def Memory.wfFrom (lo : Nat) : Memory → Bool
  | [] => true
  | (k, v) :: rest =>
    decide (lo ≤ k) && decide (k < 65536) && (v != Config.unlistedByte) && Memory.wfFrom (k + 1) rest

/-- The canonical form: equal memories are equal lists. -/
def Memory.wf (m : Memory) : Bool := Memory.wfFrom 0 m

/-! ### Collaborators -/

/-- `MEM_MODEL` (00_scope.md R7, R61): how a collaborator answers the two calls of R60. Both are total, "a byte value is
always returned/accepted", and no more is assumed: a read may change what the collaborator holds, as a device's does. Its
own state is `State.mem`, a list of cells; cells above 0xFFFF are its own to use. -/
structure MemModel where
  /-- `readByte`: the byte returned, and what the collaborator holds after. -/
  read : Memory → Word → Byte × Memory
  /-- `writeByte`: what the collaborator holds after. -/
  write : Memory → Word → Byte → Memory

/-- The default of R61: an ideal RAM of 65536 bytes, whose reads have no effect. -/
def idealRam : MemModel where
  read m addr := (m.read addr.toNat, m)
  write m addr v := m.write addr.toNat v

/-- The policy R61 quotes of the reference: a store of `size` bytes that clamps out-of-range reads to 0 and ignores
out-of-range writes. -/
def clampedRam (size : Nat) : MemModel where
  read m addr := (if addr.toNat < size then m.read addr.toNat else 0x00, m)
  write m addr v := if addr.toNat < size then m.write addr.toNat v else m

end Sys2Proof.Machine
end

