-- ==== Sys2Proof/Machine/Params.lean ====
section
/-! DEFINITION. The parameters of spec/00_scope.md R7 that the spec leaves to a model as arguments, and the values this
hardware takes. Every operation that depends on one takes them all as its last argument, whose default is `params`; so
`execIn` and `stepIn` of Machine/AnyParams.lean are the machine under any values, and `exec` and `step` are it under
these. -/

namespace Sys2Proof.Machine

/-- The parameters an operation may depend on (R7). -/
structure Params where
  /-- `MEM_MODEL` (D2): the memory collaborator. -/
  mem : MemModel
  /-- `JMP_IND_PAGE_WRAP` (D5): the high pointer byte of JMP (ind) is read in the pointer's own page. -/
  jmpIndPageWrap : Bool
  /-- `PUSH_SETS_LIVE_BU` (D7): PHP and BRK set B and U in the live P as well as in the pushed byte. -/
  pushSetsLiveBU : Bool

/-- `MEM_MODEL` at the spec's default, the ideal RAM (R7, R61, D2): log entry 2. -/
def memModel : MemModel := idealRam

/-- `JMP_IND_PAGE_WRAP` (R7, D5): the high pointer byte of JMP (ind) is read from pointer + 1 mod 65536. The value
is the spec's own decision; unsafe where the reference differs: log entry 6. -/
def jmpIndPageWrap : Bool := false

/-- `PUSH_SETS_LIVE_BU` (R7, D7): PHP and BRK set B and U in the live P as well as in the pushed byte. The value is
the spec's own decision; unsafe where the reference differs: log entry 7. -/
def pushSetsLiveBU : Bool := true

/-- The values this hardware takes. -/
def params : Params := { mem := memModel, jmpIndPageWrap := jmpIndPageWrap, pushSetsLiveBU := pushSetsLiveBU }

end Sys2Proof.Machine
end

