-- ==== Sys2Proof/Machine/Ops.lean ====
section
/-! DEFINITION. The named operations over memory and registers: the register writes, the two bus calls
(spec/20_memory.md R60), the fetch primitive (40_dispatch_addressing.md R125), the stack primitives (R72-R74), and taking
the trap and returning from it (46_jump_system.md R294, R295; 60_exceptions.md R336, R337). -/

namespace Sys2Proof.Machine

/-! ### Registers -/

/-- `A <- v` (R9). -/
def State.writeA (s : State) (v : Byte) : State := { s with a := v }

/-- `X <- v` (R9). -/
def State.writeX (s : State) (v : Byte) : State := { s with x := v }

/-- `Y <- v` (R9). -/
def State.writeY (s : State) (v : Byte) : State := { s with y := v }

/-- `SP <- v` (R9). -/
def State.writeSP (s : State) (v : Byte) : State := { s with sp := v }

/-- `PC <- v` (R9). -/
def State.writePC (s : State) (v : Word) : State := { s with pc := v }

/-- `P <- f`, all eight flags (R9). -/
def State.writeP (s : State) (f : Flags) : State := { s with p := f }

/-- `SetNZ(r)` on the live P (41_alu.md R150). -/
def State.setNZ (s : State) (r : Byte) : State := s.writeP (s.p.setNZ r)

/-- `P.C <- c; SetNZ(r)` on the live P. -/
def State.setCNZ (s : State) (c : Bool) (r : Byte) : State := s.writeP (s.p.setCNZ c r)

/-! ### The bus -/

/-- The byte the ideal RAM holds at the address, with no bus transaction. -/
def State.byteAt (s : State) (addr : Word) : Byte := s.mem.read addr.toNat

/-- `MemRead(addr, 1)` (R60): the byte the collaborator returns, and the state with the transaction noted. -/
def State.memRead (s : State) (addr : Word) (q : Params := params) : Byte × State :=
  let r := q.mem.read s.mem addr
  (r.1, { s with mem := r.2, bus := s.bus ++ [.read addr r.1] })

/-- `MemWrite(addr, 1, v)` (R60). -/
def State.memWrite (s : State) (addr : Word) (v : Byte) (q : Params := params) : State :=
  { s with mem := q.mem.write s.mem addr v, bus := s.bus ++ [.write addr v] }

/-- Two byte reads, the low byte first (R63, R65). -/
def State.memRead16 (s : State) (lo hi : Word) (q : Params := params) : Word × State :=
  let l := s.memRead lo q
  let h := l.2.memRead hi q
  (joinBytes l.1 h.1, h.2)

/-- `fetch()` of 40_dispatch_addressing.md R125: the byte at PC, PC advanced by one mod 65536. -/
def State.fetch (s : State) (q : Params := params) : Byte × State :=
  let r := s.memRead s.pc q
  (r.1, r.2.writePC (r.2.pc + 1))

/-! ### The stack -/

/-- The address a stack pointer designates (10_state.md R21): page 1. -/
def stackAddr (sp : Byte) : Word := Config.stackPage ||| zext16 sp

/-- `Push(v)` of R72: write, then decrement SP mod 256. -/
def State.push (s : State) (v : Byte) (q : Params := params) : State :=
  (s.memWrite (stackAddr s.sp) v q).writeSP (s.sp - 1)

/-- `Pull()` of R73: increment SP mod 256, then read. -/
def State.pull (s : State) (q : Params := params) : Byte × State :=
  (s.writeSP (s.sp + 1)).memRead (stackAddr (s.sp + 1)) q

/-- `Push16(w)` of R74: high byte, then low byte. -/
def State.push16 (s : State) (w : Word) (q : Params := params) : State :=
  (s.push (highByte w) q).push (lowByte w) q

/-- `Pull16()` of R74: low byte, then high byte. -/
def State.pull16 (s : State) (q : Params := params) : Word × State :=
  let l := s.pull q
  let h := l.2.pull q
  (joinBytes l.1 h.1, h.2)

/-- The status push PHP and BRK share (47_transfer_stack.md R317, 10_state.md R36): the image is taken, the live B and
U are set where the parameter says so, and the image is pushed. -/
def State.pushStatus (setsLiveBU : Bool) (s : State) (q : Params := params) : State :=
  let img := s.p.pushImage
  (if setsLiveBU then s.writeP (Flags.ofByte img) else s).push img q

/-! ### The trap path -/

/-- Trap entry as BRK takes it (R294, R336): push the return address and the status image, set I, and continue at the
address held in the BRK vector. -/
def State.trapEnter (setsLiveBU : Bool) (ret : Word) (s : State) (q : Params := params) : State :=
  let s1 := (s.push16 ret q).pushStatus setsLiveBU q
  let s2 := s1.writeP { s1.p with i := true }
  let v := s2.memRead16 Config.brkVector (Config.brkVector + 1) q
  v.2.writePC v.1

/-- Trap return as RTI takes it (R295, R337): pull the status, all eight bits, then PC, with no adjustment. -/
def State.trapReturn (s : State) (q : Params := params) : State :=
  let f := s.pull q
  let s1 := f.2.writeP (Flags.rtiLoad f.1)
  let w := s1.pull16 q
  w.2.writePC w.1

end Sys2Proof.Machine
end

