-- ==== Sys2Proof/Syntax.lean ====
section
/-! DEFINITION. The instruction set as data: one constructor of `Instr` per row of spec/opcode_table.json, that is
per legal (mnemonic, addressing mode) pair of spec/30_encoding.md R94 and R95, with its operand field (R92). -/

namespace Sys2Proof

/-- The 56 operations (spec/30_encoding.md R93 `OperationKind`, R99). -/
inductive Operation where
  | lda | ldx | ldy | sta | stx | sty | and | ora | eor | bit | adc | sbc | cmp | cpx | cpy | inc | dec | inx
  | iny | dex | dey | asl | lsr | rol | ror | bcc | bcs | beq | bne | bmi | bpl | bvc | bvs | clc | sec | cld
  | sed | cli | sei | clv | jmp | jsr | rts | brk | rti | nop | tax | tay | txa | tya | tsx | txs | pha | php
  | pla | plp
  deriving DecidableEq, Repr

/-- The 13 addressing-mode kinds (spec/30_encoding.md R91 `AddressingModeKind`). -/
inductive Mode where
  | imp | acc | imm | zp | zpx | zpy | abs | absx | absy | ind | indx | indy | rel
  deriving DecidableEq, Repr

/-- How many operand bytes follow the opcode byte (R90, R91). -/
def Mode.operandBytes : Mode → Nat
  | .imp | .acc => 0
  | .imm | .zp | .zpx | .zpy | .indx | .indy | .rel => 1
  | .abs | .absx | .absy | .ind => 2

/-- The instruction length of R91's table. -/
def Mode.length (m : Mode) : Nat := 1 + m.operandBytes

/-- The eleven mode kinds that produce an address, each with its operand field (R91, R92). -/
inductive AddrMode where
  | imm (imm8 : Byte)   -- the operand byte itself
  | zp (zp8 : Byte)
  | zpx (zp8 : Byte)
  | zpy (zp8 : Byte)
  | abs (abs16 : Word)
  | absx (abs16 : Word)
  | absy (abs16 : Word)
  | ind (ptr16 : Word)
  | indx (zp8 : Byte)
  | indy (zp8 : Byte)
  | rel (rel8 : Byte)   -- signed
  deriving DecidableEq, Repr

/-- An instruction's operand: Implied and Accumulator contribute no address (40_dispatch_addressing.md R121). -/
inductive Operand where
  | imp
  | acc
  | addr (m : AddrMode)
  deriving DecidableEq, Repr

/-- The mode kind of an address-producing operand. -/
def AddrMode.mode : AddrMode → Mode
  | .imm _ => .imm | .zp _ => .zp | .zpx _ => .zpx | .zpy _ => .zpy | .abs _ => .abs | .absx _ => .absx
  | .absy _ => .absy | .ind _ => .ind | .indx _ => .indx | .indy _ => .indy | .rel _ => .rel

/-- The mode kind of an operand. -/
def Operand.mode : Operand → Mode
  | .imp => .imp
  | .acc => .acc
  | .addr m => m.mode

/-- One constructor per row of spec/opcode_table.json, in the order of the rules R180 to R319. -/
inductive Instr where
  -- LDA, R180
  | ldaImm (imm8 : Byte)
  | ldaZp (zp8 : Byte)
  | ldaZpx (zp8 : Byte)
  | ldaAbs (abs16 : Word)
  | ldaAbsx (abs16 : Word)
  | ldaAbsy (abs16 : Word)
  | ldaIndx (zp8 : Byte)
  | ldaIndy (zp8 : Byte)
  -- LDX, R181
  | ldxImm (imm8 : Byte)
  | ldxZp (zp8 : Byte)
  | ldxZpy (zp8 : Byte)
  | ldxAbs (abs16 : Word)
  | ldxAbsy (abs16 : Word)
  -- LDY, R182
  | ldyImm (imm8 : Byte)
  | ldyZp (zp8 : Byte)
  | ldyZpx (zp8 : Byte)
  | ldyAbs (abs16 : Word)
  | ldyAbsx (abs16 : Word)
  -- STA, R183
  | staZp (zp8 : Byte)
  | staZpx (zp8 : Byte)
  | staAbs (abs16 : Word)
  | staAbsx (abs16 : Word)
  | staAbsy (abs16 : Word)
  | staIndx (zp8 : Byte)
  | staIndy (zp8 : Byte)
  -- STX, R184
  | stxZp (zp8 : Byte)
  | stxZpy (zp8 : Byte)
  | stxAbs (abs16 : Word)
  -- STY, R185
  | styZp (zp8 : Byte)
  | styZpx (zp8 : Byte)
  | styAbs (abs16 : Word)
  -- AND, R200
  | andImm (imm8 : Byte)
  | andZp (zp8 : Byte)
  | andZpx (zp8 : Byte)
  | andAbs (abs16 : Word)
  | andAbsx (abs16 : Word)
  | andAbsy (abs16 : Word)
  | andIndx (zp8 : Byte)
  | andIndy (zp8 : Byte)
  -- ORA, R201
  | oraImm (imm8 : Byte)
  | oraZp (zp8 : Byte)
  | oraZpx (zp8 : Byte)
  | oraAbs (abs16 : Word)
  | oraAbsx (abs16 : Word)
  | oraAbsy (abs16 : Word)
  | oraIndx (zp8 : Byte)
  | oraIndy (zp8 : Byte)
  -- EOR, R202
  | eorImm (imm8 : Byte)
  | eorZp (zp8 : Byte)
  | eorZpx (zp8 : Byte)
  | eorAbs (abs16 : Word)
  | eorAbsx (abs16 : Word)
  | eorAbsy (abs16 : Word)
  | eorIndx (zp8 : Byte)
  | eorIndy (zp8 : Byte)
  -- BIT, R203
  | bitZp (zp8 : Byte)
  | bitAbs (abs16 : Word)
  -- ADC, R204
  | adcImm (imm8 : Byte)
  | adcZp (zp8 : Byte)
  | adcZpx (zp8 : Byte)
  | adcAbs (abs16 : Word)
  | adcAbsx (abs16 : Word)
  | adcAbsy (abs16 : Word)
  | adcIndx (zp8 : Byte)
  | adcIndy (zp8 : Byte)
  -- SBC, R205
  | sbcImm (imm8 : Byte)
  | sbcZp (zp8 : Byte)
  | sbcZpx (zp8 : Byte)
  | sbcAbs (abs16 : Word)
  | sbcAbsx (abs16 : Word)
  | sbcAbsy (abs16 : Word)
  | sbcIndx (zp8 : Byte)
  | sbcIndy (zp8 : Byte)
  -- CMP, R206
  | cmpImm (imm8 : Byte)
  | cmpZp (zp8 : Byte)
  | cmpZpx (zp8 : Byte)
  | cmpAbs (abs16 : Word)
  | cmpAbsx (abs16 : Word)
  | cmpAbsy (abs16 : Word)
  | cmpIndx (zp8 : Byte)
  | cmpIndy (zp8 : Byte)
  -- CPX, R207
  | cpxImm (imm8 : Byte)
  | cpxZp (zp8 : Byte)
  | cpxAbs (abs16 : Word)
  -- CPY, R208
  | cpyImm (imm8 : Byte)
  | cpyZp (zp8 : Byte)
  | cpyAbs (abs16 : Word)
  -- INC, R230
  | incZp (zp8 : Byte)
  | incZpx (zp8 : Byte)
  | incAbs (abs16 : Word)
  | incAbsx (abs16 : Word)
  -- DEC, R231
  | decZp (zp8 : Byte)
  | decZpx (zp8 : Byte)
  | decAbs (abs16 : Word)
  | decAbsx (abs16 : Word)
  -- INX, R232
  | inx
  -- INY, R233
  | iny
  -- DEX, R234
  | dex
  -- DEY, R235
  | dey
  -- ASL, R236, R237
  | aslAcc
  | aslZp (zp8 : Byte)
  | aslZpx (zp8 : Byte)
  | aslAbs (abs16 : Word)
  | aslAbsx (abs16 : Word)
  -- LSR, R238, R239
  | lsrAcc
  | lsrZp (zp8 : Byte)
  | lsrZpx (zp8 : Byte)
  | lsrAbs (abs16 : Word)
  | lsrAbsx (abs16 : Word)
  -- ROL, R240, R241
  | rolAcc
  | rolZp (zp8 : Byte)
  | rolZpx (zp8 : Byte)
  | rolAbs (abs16 : Word)
  | rolAbsx (abs16 : Word)
  -- ROR, R242, R243
  | rorAcc
  | rorZp (zp8 : Byte)
  | rorZpx (zp8 : Byte)
  | rorAbs (abs16 : Word)
  | rorAbsx (abs16 : Word)
  -- BCC, R261
  | bcc (rel8 : Byte)
  -- BCS, R262
  | bcs (rel8 : Byte)
  -- BEQ, R263
  | beq (rel8 : Byte)
  -- BNE, R264
  | bne (rel8 : Byte)
  -- BMI, R265
  | bmi (rel8 : Byte)
  -- BPL, R266
  | bpl (rel8 : Byte)
  -- BVC, R267
  | bvc (rel8 : Byte)
  -- BVS, R268
  | bvs (rel8 : Byte)
  -- CLC, R270
  | clc
  -- SEC, R271
  | sec
  -- CLD, R272
  | cld
  -- SED, R273
  | sed
  -- CLI, R274
  | cli
  -- SEI, R275
  | sei
  -- CLV, R276
  | clv
  -- JMP, R290, R291
  | jmpAbs (abs16 : Word)
  | jmpInd (ptr16 : Word)
  -- JSR, R292
  | jsrAbs (abs16 : Word)
  -- RTS, R293
  | rts
  -- BRK, R294
  | brk
  -- RTI, R295
  | rti
  -- NOP, R296
  | nop
  -- TAX, R310
  | tax
  -- TAY, R311
  | tay
  -- TXA, R312
  | txa
  -- TYA, R313
  | tya
  -- TSX, R314
  | tsx
  -- TXS, R315
  | txs
  -- PHA, R316
  | pha
  -- PHP, R317
  | php
  -- PLA, R318
  | pla
  -- PLP, R319
  | plp
  deriving DecidableEq, Repr

/-- The (operation, operand) pair an instruction stands for (30_encoding.md R90, R93). -/
def Instr.form : Instr → Operation × Operand
  | .ldaImm v => (.lda, .addr (.imm v))
  | .ldaZp v => (.lda, .addr (.zp v))
  | .ldaZpx v => (.lda, .addr (.zpx v))
  | .ldaAbs v => (.lda, .addr (.abs v))
  | .ldaAbsx v => (.lda, .addr (.absx v))
  | .ldaAbsy v => (.lda, .addr (.absy v))
  | .ldaIndx v => (.lda, .addr (.indx v))
  | .ldaIndy v => (.lda, .addr (.indy v))
  | .ldxImm v => (.ldx, .addr (.imm v))
  | .ldxZp v => (.ldx, .addr (.zp v))
  | .ldxZpy v => (.ldx, .addr (.zpy v))
  | .ldxAbs v => (.ldx, .addr (.abs v))
  | .ldxAbsy v => (.ldx, .addr (.absy v))
  | .ldyImm v => (.ldy, .addr (.imm v))
  | .ldyZp v => (.ldy, .addr (.zp v))
  | .ldyZpx v => (.ldy, .addr (.zpx v))
  | .ldyAbs v => (.ldy, .addr (.abs v))
  | .ldyAbsx v => (.ldy, .addr (.absx v))
  | .staZp v => (.sta, .addr (.zp v))
  | .staZpx v => (.sta, .addr (.zpx v))
  | .staAbs v => (.sta, .addr (.abs v))
  | .staAbsx v => (.sta, .addr (.absx v))
  | .staAbsy v => (.sta, .addr (.absy v))
  | .staIndx v => (.sta, .addr (.indx v))
  | .staIndy v => (.sta, .addr (.indy v))
  | .stxZp v => (.stx, .addr (.zp v))
  | .stxZpy v => (.stx, .addr (.zpy v))
  | .stxAbs v => (.stx, .addr (.abs v))
  | .styZp v => (.sty, .addr (.zp v))
  | .styZpx v => (.sty, .addr (.zpx v))
  | .styAbs v => (.sty, .addr (.abs v))
  | .andImm v => (.and, .addr (.imm v))
  | .andZp v => (.and, .addr (.zp v))
  | .andZpx v => (.and, .addr (.zpx v))
  | .andAbs v => (.and, .addr (.abs v))
  | .andAbsx v => (.and, .addr (.absx v))
  | .andAbsy v => (.and, .addr (.absy v))
  | .andIndx v => (.and, .addr (.indx v))
  | .andIndy v => (.and, .addr (.indy v))
  | .oraImm v => (.ora, .addr (.imm v))
  | .oraZp v => (.ora, .addr (.zp v))
  | .oraZpx v => (.ora, .addr (.zpx v))
  | .oraAbs v => (.ora, .addr (.abs v))
  | .oraAbsx v => (.ora, .addr (.absx v))
  | .oraAbsy v => (.ora, .addr (.absy v))
  | .oraIndx v => (.ora, .addr (.indx v))
  | .oraIndy v => (.ora, .addr (.indy v))
  | .eorImm v => (.eor, .addr (.imm v))
  | .eorZp v => (.eor, .addr (.zp v))
  | .eorZpx v => (.eor, .addr (.zpx v))
  | .eorAbs v => (.eor, .addr (.abs v))
  | .eorAbsx v => (.eor, .addr (.absx v))
  | .eorAbsy v => (.eor, .addr (.absy v))
  | .eorIndx v => (.eor, .addr (.indx v))
  | .eorIndy v => (.eor, .addr (.indy v))
  | .bitZp v => (.bit, .addr (.zp v))
  | .bitAbs v => (.bit, .addr (.abs v))
  | .adcImm v => (.adc, .addr (.imm v))
  | .adcZp v => (.adc, .addr (.zp v))
  | .adcZpx v => (.adc, .addr (.zpx v))
  | .adcAbs v => (.adc, .addr (.abs v))
  | .adcAbsx v => (.adc, .addr (.absx v))
  | .adcAbsy v => (.adc, .addr (.absy v))
  | .adcIndx v => (.adc, .addr (.indx v))
  | .adcIndy v => (.adc, .addr (.indy v))
  | .sbcImm v => (.sbc, .addr (.imm v))
  | .sbcZp v => (.sbc, .addr (.zp v))
  | .sbcZpx v => (.sbc, .addr (.zpx v))
  | .sbcAbs v => (.sbc, .addr (.abs v))
  | .sbcAbsx v => (.sbc, .addr (.absx v))
  | .sbcAbsy v => (.sbc, .addr (.absy v))
  | .sbcIndx v => (.sbc, .addr (.indx v))
  | .sbcIndy v => (.sbc, .addr (.indy v))
  | .cmpImm v => (.cmp, .addr (.imm v))
  | .cmpZp v => (.cmp, .addr (.zp v))
  | .cmpZpx v => (.cmp, .addr (.zpx v))
  | .cmpAbs v => (.cmp, .addr (.abs v))
  | .cmpAbsx v => (.cmp, .addr (.absx v))
  | .cmpAbsy v => (.cmp, .addr (.absy v))
  | .cmpIndx v => (.cmp, .addr (.indx v))
  | .cmpIndy v => (.cmp, .addr (.indy v))
  | .cpxImm v => (.cpx, .addr (.imm v))
  | .cpxZp v => (.cpx, .addr (.zp v))
  | .cpxAbs v => (.cpx, .addr (.abs v))
  | .cpyImm v => (.cpy, .addr (.imm v))
  | .cpyZp v => (.cpy, .addr (.zp v))
  | .cpyAbs v => (.cpy, .addr (.abs v))
  | .incZp v => (.inc, .addr (.zp v))
  | .incZpx v => (.inc, .addr (.zpx v))
  | .incAbs v => (.inc, .addr (.abs v))
  | .incAbsx v => (.inc, .addr (.absx v))
  | .decZp v => (.dec, .addr (.zp v))
  | .decZpx v => (.dec, .addr (.zpx v))
  | .decAbs v => (.dec, .addr (.abs v))
  | .decAbsx v => (.dec, .addr (.absx v))
  | .inx => (.inx, .imp)
  | .iny => (.iny, .imp)
  | .dex => (.dex, .imp)
  | .dey => (.dey, .imp)
  | .aslAcc => (.asl, .acc)
  | .aslZp v => (.asl, .addr (.zp v))
  | .aslZpx v => (.asl, .addr (.zpx v))
  | .aslAbs v => (.asl, .addr (.abs v))
  | .aslAbsx v => (.asl, .addr (.absx v))
  | .lsrAcc => (.lsr, .acc)
  | .lsrZp v => (.lsr, .addr (.zp v))
  | .lsrZpx v => (.lsr, .addr (.zpx v))
  | .lsrAbs v => (.lsr, .addr (.abs v))
  | .lsrAbsx v => (.lsr, .addr (.absx v))
  | .rolAcc => (.rol, .acc)
  | .rolZp v => (.rol, .addr (.zp v))
  | .rolZpx v => (.rol, .addr (.zpx v))
  | .rolAbs v => (.rol, .addr (.abs v))
  | .rolAbsx v => (.rol, .addr (.absx v))
  | .rorAcc => (.ror, .acc)
  | .rorZp v => (.ror, .addr (.zp v))
  | .rorZpx v => (.ror, .addr (.zpx v))
  | .rorAbs v => (.ror, .addr (.abs v))
  | .rorAbsx v => (.ror, .addr (.absx v))
  | .bcc v => (.bcc, .addr (.rel v))
  | .bcs v => (.bcs, .addr (.rel v))
  | .beq v => (.beq, .addr (.rel v))
  | .bne v => (.bne, .addr (.rel v))
  | .bmi v => (.bmi, .addr (.rel v))
  | .bpl v => (.bpl, .addr (.rel v))
  | .bvc v => (.bvc, .addr (.rel v))
  | .bvs v => (.bvs, .addr (.rel v))
  | .clc => (.clc, .imp)
  | .sec => (.sec, .imp)
  | .cld => (.cld, .imp)
  | .sed => (.sed, .imp)
  | .cli => (.cli, .imp)
  | .sei => (.sei, .imp)
  | .clv => (.clv, .imp)
  | .jmpAbs v => (.jmp, .addr (.abs v))
  | .jmpInd v => (.jmp, .addr (.ind v))
  | .jsrAbs v => (.jsr, .addr (.abs v))
  | .rts => (.rts, .imp)
  | .brk => (.brk, .imp)
  | .rti => (.rti, .imp)
  | .nop => (.nop, .imp)
  | .tax => (.tax, .imp)
  | .tay => (.tay, .imp)
  | .txa => (.txa, .imp)
  | .tya => (.tya, .imp)
  | .tsx => (.tsx, .imp)
  | .txs => (.txs, .imp)
  | .pha => (.pha, .imp)
  | .php => (.php, .imp)
  | .pla => (.pla, .imp)
  | .plp => (.plp, .imp)

/-- The operation an instruction performs. -/
def Instr.operation (i : Instr) : Operation := i.form.1

/-- The operand an instruction carries. -/
def Instr.operand (i : Instr) : Operand := i.form.2

/-- The addressing-mode kind of an instruction. -/
def Instr.mode (i : Instr) : Mode := i.operand.mode

/-- The number of bytes an instruction takes (R90). -/
def Instr.length (i : Instr) : Nat := i.mode.length

end Sys2Proof
end

