-- ==== Sys2Proof/Machine/Operands.lean ====
section
/-! DEFINITION. `addressing_resolver` (spec/40_dispatch_addressing.md R126-R141). The operand bytes have been fetched
and PC advanced past them (Machine/Fetch.lean), so every function here starts from the PC of R140, the address of the
next instruction. -/

namespace Sys2Proof

open Machine

/-- The address of the high pointer byte of JMP (ind), under either setting of `JMP_IND_PAGE_WRAP` (R136). -/
def Machine.indHighAddr (pageWrap : Bool) (ptr : Word) : Word :=
  if pageWrap then (ptr &&& 0xFF00) ||| ((ptr + 1) &&& 0x00FF) else ptr + 1

/-- The address and reads of Indirect mode (R136). -/
def Machine.State.resolveInd (pageWrap : Bool) (ptr : Word) (s : State) (q : Params := params) :
    Word × State :=
  s.memRead16 ptr (indHighAddr pageWrap ptr) q

/-- The effective address of an operand, with the pointer reads of the indirect modes (R126). It writes no register
and makes no write call. -/
def AddrMode.resolve (m : AddrMode) (s : State) (q : Params := params) : Word × State :=
  match m with
  | .imm _ => (s.pc - 1, s)                                       -- R129: the operand byte's own address
  | .zp b => (zext16 b, s)                                        -- R130
  | .zpx b => (zext16 (b + s.x), s)                               -- R131: the sum wraps in page zero
  | .zpy b => (zext16 (b + s.y), s)                               -- R132
  | .abs w => (w, s)                                              -- R133
  | .absx w => (w + zext16 s.x, s)                                -- R134
  | .absy w => (w + zext16 s.y, s)                                -- R135
  | .ind ptr => s.resolveInd q.jmpIndPageWrap ptr q               -- R136
  | .indx b => s.memRead16 (zext16 (b + s.x)) (zext16 (b + s.x) + 1) q -- R137: pointer + 1 not masked
  | .indy b =>                                                    -- R138: pointer + 1 not masked
    let r := s.memRead16 (zext16 b) (zext16 b + 1) q
    (r.1 + zext16 s.y, r.2)
  | .rel b => (s.pc + sext16 b, s)                                -- R139

/-- The effective address alone, in the ideal RAM. -/
def AddrMode.ea (m : AddrMode) (s : State) : Word := (m.resolve s).1

/-- The 8-bit operand of an instruction that reads memory (R141): the immediate byte, which the fetch has read, or the
byte at the effective address. -/
def AddrMode.load (m : AddrMode) (s : State) (q : Params := params) : Byte × State :=
  match m with
  | .imm b => (b, s)
  | m =>
    let e := m.resolve s q
    e.2.memRead e.1 q

/-- The operand's value alone, in the ideal RAM. -/
def AddrMode.value (m : AddrMode) (s : State) : Byte := (m.load s).1

/-- The store of an instruction that writes its effective address and reads nothing there (R78, R183). -/
def AddrMode.store (m : AddrMode) (v : Byte) (s : State) (q : Params := params) : State :=
  let e := m.resolve s q
  e.2.memWrite e.1 v q

/-- The read and the write of a read-modify-write instruction (R78, R141): the byte read at the effective address and
the state after `f` of it is written back. -/
def AddrMode.modify (m : AddrMode) (f : Byte → Byte) (s : State) (q : Params := params) : Byte × State :=
  let e := m.resolve s q
  let r := e.2.memRead e.1 q
  (r.1, r.2.memWrite e.1 (f r.1) q)

end Sys2Proof
end

