-- ==== Sys2Proof/Machine/BranchFlag.lean ====
section
/-! DEFINITION. Conditional branches and flag instructions (spec/45_branch_flag.md R260-R276). -/

namespace Sys2Proof.Machine

/-- The common behaviour of the eight branches (R260): PC becomes the target if the condition holds, nothing else
happens otherwise; no flag changes. -/
def branchIf (cond : Flags → Bool) (rel8 : Byte) (s : State) : Result :=
  let e := (AddrMode.rel rel8).resolve s
  .next (if cond e.2.p then e.2.writePC e.1 else e.2)

/-- R261: the condition of D9. -/
def execBcc (rel8 : Byte) (s : State) : Result := branchIf (fun f => !f.c) rel8 s

/-- R262: the condition of D9. -/
def execBcs (rel8 : Byte) (s : State) : Result := branchIf (fun f => f.c) rel8 s

/-- R263: the condition of D9. -/
def execBeq (rel8 : Byte) (s : State) : Result := branchIf (fun f => f.z) rel8 s

/-- R264: the condition of D9. -/
def execBne (rel8 : Byte) (s : State) : Result := branchIf (fun f => !f.z) rel8 s

/-- R265: the condition of D9. -/
def execBmi (rel8 : Byte) (s : State) : Result := branchIf (fun f => f.n) rel8 s

/-- R266: the condition of D9. -/
def execBpl (rel8 : Byte) (s : State) : Result := branchIf (fun f => !f.n) rel8 s

/-- R267: the condition of D9. -/
def execBvc (rel8 : Byte) (s : State) : Result := branchIf (fun f => !f.v) rel8 s

/-- R268: the condition of D9. -/
def execBvs (rel8 : Byte) (s : State) : Result := branchIf (fun f => f.v) rel8 s

/-- R270. -/
def execClc (s : State) : Result := .next (s.writeP { s.p with c := false })

/-- R271. -/
def execSec (s : State) : Result := .next (s.writeP { s.p with c := true })

/-- R272. -/
def execCld (s : State) : Result := .next (s.writeP { s.p with d := false })

/-- R273. -/
def execSed (s : State) : Result := .next (s.writeP { s.p with d := true })

/-- R274. -/
def execCli (s : State) : Result := .next (s.writeP { s.p with i := false })

/-- R275. -/
def execSei (s : State) : Result := .next (s.writeP { s.p with i := true })

/-- R276. -/
def execClv (s : State) : Result := .next (s.writeP { s.p with v := false })

end Sys2Proof.Machine
end

