-- ==== Sys2Proof/Machine/Alu.lean ====
section
/-! DEFINITION. `alu_6502` (spec/41_alu.md R151-R160): the pure 8-bit functions. Sums are computed exactly, in Nat or
Int, and narrowed at the end (R162); the arithmetic is binary whatever the D flag holds (R161). -/

namespace Sys2Proof.Machine

/-- Result, carry-out and overflow of `AddC` and `SubB`. -/
structure AluResult where
  r : Byte
  c : Bool
  v : Bool
  deriving DecidableEq, Repr

/-- `AddC(a, b, cin)` of R151. -/
def addC (a b : Byte) (cin : Bool) : AluResult :=
  let s : Nat := a.toNat + b.toNat + cin.toNat
  let r : Byte := BitVec.ofNat 8 s
  { r := r, c := decide (s > 0xFF), v := (a.msb == b.msb) && (a.msb != r.msb) }

/-- `SubB(a, b, cin)` of R152; the carry-out is "no borrow". -/
def subB (a b : Byte) (cin : Bool) : AluResult :=
  let d : Int := (a.toNat : Int) - (b.toNat : Int) - (1 - (cin.toNat : Int))
  let r : Byte := BitVec.ofInt 8 d
  { r := r, c := decide (d ≥ 0), v := (a.msb != b.msb) && (a.msb != r.msb) }

/-- The result of `Compare(reg, b)` (R153): the difference modulo 256. -/
def compareResult (reg b : Byte) : Byte := reg - b

/-- The carry of `Compare(reg, b)` (R153): the unsigned comparison reg ≥ b. -/
def compareCarry (reg b : Byte) : Bool := decide (reg.toNat ≥ b.toNat)

/-- `Asl(v, cin)` of R156; the carry-in is ignored. -/
def asl (v : Byte) (_cin : Bool) : Byte × Bool := (v <<< 1, v.getLsbD 7)

/-- `Lsr(v, cin)` of R157; the carry-in is ignored. -/
def lsr (v : Byte) (_cin : Bool) : Byte × Bool := (v >>> 1, v.getLsbD 0)

/-- `Rol(v, cin)` of R158: the old carry enters at bit 0. -/
def rol (v : Byte) (cin : Bool) : Byte × Bool :=
  ((v <<< 1) ||| (if cin then 0x01 else 0x00), v.getLsbD 7)

/-- `Ror(v, cin)` of R159: the old carry enters at bit 7. -/
def ror (v : Byte) (cin : Bool) : Byte × Bool :=
  ((v >>> 1) ||| (if cin then 0x80 else 0x00), v.getLsbD 0)

/-- `Inc8(v)` of R160. -/
def inc8 (v : Byte) : Byte := v + 1

/-- `Dec8(v)` of R160. -/
def dec8 (v : Byte) : Byte := v - 1

end Sys2Proof.Machine
end

