-- ==== Sys2Proof/Machine/IncDecShift.lean ====
section
/-! DEFINITION. Increment, decrement, shift and rotate instructions (spec/44_incdec_shift.md R230-R243). The memory
forms read and then write their address (spec/20_memory.md R78); the Accumulator forms touch no memory. -/

namespace Sys2Proof.Machine

/-- INC and DEC: the result written back, N and Z from it, C and V unaffected. -/
def stepMem (f : Byte → Byte) (m : AddrMode) (s : State) (q : Params := params) : Result :=
  let r := m.modify f s q
  .next (r.2.setNZ (f r.1))

/-- The memory form of the shifts and rotates: the result written back, C, N and Z set. -/
def shiftMem (f : Byte → Bool → Byte × Bool) (m : AddrMode) (s : State) (q : Params := params) : Result :=
  let cin := s.p.c
  let r := m.modify (fun v => (f v cin).1) s q
  .next (r.2.setCNZ (f r.1 cin).2 (f r.1 cin).1)

/-- The Accumulator form of the shifts and rotates. -/
def shiftAcc (f : Byte → Bool → Byte × Bool) (s : State) : Result :=
  let q := f s.a s.p.c
  .next ((s.writeA q.1).setCNZ q.2 q.1)

/-- R230. -/
def opInc (m : AddrMode) (s : State) (q : Params := params) : Result := stepMem inc8 m s q

/-- R231. -/
def opDec (m : AddrMode) (s : State) (q : Params := params) : Result := stepMem dec8 m s q

/-- R237. -/
def opAsl (m : AddrMode) (s : State) (q : Params := params) : Result := shiftMem asl m s q

/-- R239. -/
def opLsr (m : AddrMode) (s : State) (q : Params := params) : Result := shiftMem lsr m s q

/-- R241. -/
def opRol (m : AddrMode) (s : State) (q : Params := params) : Result := shiftMem rol m s q

/-- R243. -/
def opRor (m : AddrMode) (s : State) (q : Params := params) : Result := shiftMem ror m s q

/-- R230, ZP. -/
def execIncZp (zp8 : Byte) (s : State) : Result := opInc (.zp zp8) s

/-- R230, ZPX. -/
def execIncZpx (zp8 : Byte) (s : State) : Result := opInc (.zpx zp8) s

/-- R230, ABS. -/
def execIncAbs (abs16 : Word) (s : State) : Result := opInc (.abs abs16) s

/-- R230, ABSX. -/
def execIncAbsx (abs16 : Word) (s : State) : Result := opInc (.absx abs16) s

/-- R231, ZP. -/
def execDecZp (zp8 : Byte) (s : State) : Result := opDec (.zp zp8) s

/-- R231, ZPX. -/
def execDecZpx (zp8 : Byte) (s : State) : Result := opDec (.zpx zp8) s

/-- R231, ABS. -/
def execDecAbs (abs16 : Word) (s : State) : Result := opDec (.abs abs16) s

/-- R231, ABSX. -/
def execDecAbsx (abs16 : Word) (s : State) : Result := opDec (.absx abs16) s

/-- R232. -/
def execInx (s : State) : Result := .next ((s.writeX (inc8 s.x)).setNZ (inc8 s.x))

/-- R233. -/
def execIny (s : State) : Result := .next ((s.writeY (inc8 s.y)).setNZ (inc8 s.y))

/-- R234. -/
def execDex (s : State) : Result := .next ((s.writeX (dec8 s.x)).setNZ (dec8 s.x))

/-- R235. -/
def execDey (s : State) : Result := .next ((s.writeY (dec8 s.y)).setNZ (dec8 s.y))

/-- R236, ACC. -/
def execAslAcc (s : State) : Result := shiftAcc asl s

/-- R237, ZP. -/
def execAslZp (zp8 : Byte) (s : State) : Result := opAsl (.zp zp8) s

/-- R237, ZPX. -/
def execAslZpx (zp8 : Byte) (s : State) : Result := opAsl (.zpx zp8) s

/-- R237, ABS. -/
def execAslAbs (abs16 : Word) (s : State) : Result := opAsl (.abs abs16) s

/-- R237, ABSX. -/
def execAslAbsx (abs16 : Word) (s : State) : Result := opAsl (.absx abs16) s

/-- R238, ACC. -/
def execLsrAcc (s : State) : Result := shiftAcc lsr s

/-- R239, ZP. -/
def execLsrZp (zp8 : Byte) (s : State) : Result := opLsr (.zp zp8) s

/-- R239, ZPX. -/
def execLsrZpx (zp8 : Byte) (s : State) : Result := opLsr (.zpx zp8) s

/-- R239, ABS. -/
def execLsrAbs (abs16 : Word) (s : State) : Result := opLsr (.abs abs16) s

/-- R239, ABSX. -/
def execLsrAbsx (abs16 : Word) (s : State) : Result := opLsr (.absx abs16) s

/-- R240, ACC. -/
def execRolAcc (s : State) : Result := shiftAcc rol s

/-- R241, ZP. -/
def execRolZp (zp8 : Byte) (s : State) : Result := opRol (.zp zp8) s

/-- R241, ZPX. -/
def execRolZpx (zp8 : Byte) (s : State) : Result := opRol (.zpx zp8) s

/-- R241, ABS. -/
def execRolAbs (abs16 : Word) (s : State) : Result := opRol (.abs abs16) s

/-- R241, ABSX. -/
def execRolAbsx (abs16 : Word) (s : State) : Result := opRol (.absx abs16) s

/-- R242, ACC. -/
def execRorAcc (s : State) : Result := shiftAcc ror s

/-- R243, ZP. -/
def execRorZp (zp8 : Byte) (s : State) : Result := opRor (.zp zp8) s

/-- R243, ZPX. -/
def execRorZpx (zp8 : Byte) (s : State) : Result := opRor (.zpx zp8) s

/-- R243, ABS. -/
def execRorAbs (abs16 : Word) (s : State) : Result := opRor (.abs abs16) s

/-- R243, ABSX. -/
def execRorAbsx (abs16 : Word) (s : State) : Result := opRor (.absx abs16) s

end Sys2Proof.Machine
end

