-- ==== Sys2Proof/Machine/JumpSystem.lean ====
section
/-! DEFINITION. Jumps, calls, returns and system instructions (spec/46_jump_system.md R290-R296). -/

namespace Sys2Proof.Machine

/-- JMP (R290, R291): PC becomes the effective address; no access at it. -/
def jumpTo (m : AddrMode) (s : State) (q : Params := params) : Result :=
  let e := m.resolve s q
  .next (e.2.writePC e.1)

/-- JSR (R292): the address of the JSR's last byte pushed, then PC becomes the effective address. -/
def callTo (m : AddrMode) (s : State) (q : Params := params) : Result :=
  let e := m.resolve s q
  .next ((e.2.push16 (e.2.pc - 1) q).writePC e.1)

/-- R290, ABS. -/
def execJmpAbs (abs16 : Word) (s : State) : Result := jumpTo (.abs abs16) s

/-- R291, IND. -/
def execJmpInd (ptr16 : Word) (s : State) : Result := jumpTo (.ind ptr16) s

/-- R292, ABS. -/
def execJsrAbs (abs16 : Word) (s : State) : Result := callTo (.abs abs16) s

/-- RTS (R293): 1 added to the pulled address. -/
def opRts (s : State) (q : Params := params) : Result :=
  let r := s.pull16 q
  .next (r.2.writePC (r.1 + 1))

/-- BRK (R294): PC is pc0 + 1, so the return address is pc0 + 2. -/
def opBrk (s : State) (q : Params := params) : Result := .next (s.trapEnter q.pushSetsLiveBU (s.pc + 1) q)

/-- RTI (R295): no 1 added to the pulled PC. -/
def opRti (s : State) (q : Params := params) : Result := .next (s.trapReturn q)

/-- R293, IMP. -/
def execRts (s : State) : Result := opRts s

/-- R294, IMP. -/
def execBrk (s : State) : Result := opBrk s

/-- R295, IMP. -/
def execRti (s : State) : Result := opRti s

/-- R296: no effect; PC has already advanced. -/
def execNop (s : State) : Result := .next s

end Sys2Proof.Machine
end

