-- ==== Sys2Proof/Machine/LoadStore.lean ====
section
/-! DEFINITION. Load and store instructions (spec/42_load_store.md R180-R185). -/

namespace Sys2Proof.Machine

/-- The loads' common shape: the operand into a register, N and Z from it. -/
def loadInto (w : State → Byte → State) (m : AddrMode) (s : State) (q : Params := params) : Result :=
  let r := m.load s q
  .next ((w r.2 r.1).setNZ r.1)

/-- R180. -/
def opLda (m : AddrMode) (s : State) (q : Params := params) : Result := loadInto State.writeA m s q

/-- R181. -/
def opLdx (m : AddrMode) (s : State) (q : Params := params) : Result := loadInto State.writeX m s q

/-- R182. -/
def opLdy (m : AddrMode) (s : State) (q : Params := params) : Result := loadInto State.writeY m s q

/-- R183: no flags. -/
def opSta (m : AddrMode) (s : State) (q : Params := params) : Result := .next (m.store s.a s q)

/-- R184: no flags. -/
def opStx (m : AddrMode) (s : State) (q : Params := params) : Result := .next (m.store s.x s q)

/-- R185: no flags. -/
def opSty (m : AddrMode) (s : State) (q : Params := params) : Result := .next (m.store s.y s q)

/-- R180, IMM. -/
def execLdaImm (imm8 : Byte) (s : State) : Result := opLda (.imm imm8) s

/-- R180, ZP. -/
def execLdaZp (zp8 : Byte) (s : State) : Result := opLda (.zp zp8) s

/-- R180, ZPX. -/
def execLdaZpx (zp8 : Byte) (s : State) : Result := opLda (.zpx zp8) s

/-- R180, ABS. -/
def execLdaAbs (abs16 : Word) (s : State) : Result := opLda (.abs abs16) s

/-- R180, ABSX. -/
def execLdaAbsx (abs16 : Word) (s : State) : Result := opLda (.absx abs16) s

/-- R180, ABSY. -/
def execLdaAbsy (abs16 : Word) (s : State) : Result := opLda (.absy abs16) s

/-- R180, INDX. -/
def execLdaIndx (zp8 : Byte) (s : State) : Result := opLda (.indx zp8) s

/-- R180, INDY. -/
def execLdaIndy (zp8 : Byte) (s : State) : Result := opLda (.indy zp8) s

/-- R181, IMM. -/
def execLdxImm (imm8 : Byte) (s : State) : Result := opLdx (.imm imm8) s

/-- R181, ZP. -/
def execLdxZp (zp8 : Byte) (s : State) : Result := opLdx (.zp zp8) s

/-- R181, ZPY. -/
def execLdxZpy (zp8 : Byte) (s : State) : Result := opLdx (.zpy zp8) s

/-- R181, ABS. -/
def execLdxAbs (abs16 : Word) (s : State) : Result := opLdx (.abs abs16) s

/-- R181, ABSY. -/
def execLdxAbsy (abs16 : Word) (s : State) : Result := opLdx (.absy abs16) s

/-- R182, IMM. -/
def execLdyImm (imm8 : Byte) (s : State) : Result := opLdy (.imm imm8) s

/-- R182, ZP. -/
def execLdyZp (zp8 : Byte) (s : State) : Result := opLdy (.zp zp8) s

/-- R182, ZPX. -/
def execLdyZpx (zp8 : Byte) (s : State) : Result := opLdy (.zpx zp8) s

/-- R182, ABS. -/
def execLdyAbs (abs16 : Word) (s : State) : Result := opLdy (.abs abs16) s

/-- R182, ABSX. -/
def execLdyAbsx (abs16 : Word) (s : State) : Result := opLdy (.absx abs16) s

/-- R183, ZP. -/
def execStaZp (zp8 : Byte) (s : State) : Result := opSta (.zp zp8) s

/-- R183, ZPX. -/
def execStaZpx (zp8 : Byte) (s : State) : Result := opSta (.zpx zp8) s

/-- R183, ABS. -/
def execStaAbs (abs16 : Word) (s : State) : Result := opSta (.abs abs16) s

/-- R183, ABSX. -/
def execStaAbsx (abs16 : Word) (s : State) : Result := opSta (.absx abs16) s

/-- R183, ABSY. -/
def execStaAbsy (abs16 : Word) (s : State) : Result := opSta (.absy abs16) s

/-- R183, INDX. -/
def execStaIndx (zp8 : Byte) (s : State) : Result := opSta (.indx zp8) s

/-- R183, INDY. -/
def execStaIndy (zp8 : Byte) (s : State) : Result := opSta (.indy zp8) s

/-- R184, ZP. -/
def execStxZp (zp8 : Byte) (s : State) : Result := opStx (.zp zp8) s

/-- R184, ZPY. -/
def execStxZpy (zp8 : Byte) (s : State) : Result := opStx (.zpy zp8) s

/-- R184, ABS. -/
def execStxAbs (abs16 : Word) (s : State) : Result := opStx (.abs abs16) s

/-- R185, ZP. -/
def execStyZp (zp8 : Byte) (s : State) : Result := opSty (.zp zp8) s

/-- R185, ZPX. -/
def execStyZpx (zp8 : Byte) (s : State) : Result := opSty (.zpx zp8) s

/-- R185, ABS. -/
def execStyAbs (abs16 : Word) (s : State) : Result := opSty (.abs abs16) s

end Sys2Proof.Machine
end

