-- ==== Sys2Proof/Machine/LogicArith.lean ====
section
/-! DEFINITION. Logical, arithmetic and compare instructions (spec/43_logical_arith_compare.md R200-R208). -/

namespace Sys2Proof.Machine

/-- The common shape of AND, ORA and EOR (R154): the result into A, N and Z from it. -/
def logicInto (f : Byte → Byte → Byte) (m : AddrMode) (s : State) (q : Params := params) : Result :=
  let r := m.load s q
  let v := f r.2.a r.1
  .next ((r.2.writeA v).setNZ v)

/-- The common shape of ADC and SBC: A, C, V, N and Z from the ALU. -/
def arithInto (f : Byte → Byte → Bool → AluResult) (m : AddrMode) (s : State) (q : Params := params) : Result :=
  let r := m.load s q
  let q := f r.2.a r.1 r.2.p.c
  .next ((r.2.writeA q.r).writeP (r.2.p.setArith q.r q.c q.v))

/-- The common shape of the compares (R153): a register against the operand, C, Z and N only. -/
def compareWith (reg : State → Byte) (m : AddrMode) (s : State) (q : Params := params) : Result :=
  let r := m.load s q
  .next (r.2.setCNZ (compareCarry (reg r.2) r.1) (compareResult (reg r.2) r.1))

/-- R200. -/
def opAnd (m : AddrMode) (s : State) (q : Params := params) : Result := logicInto (fun a b => a &&& b) m s q

/-- R201. -/
def opOra (m : AddrMode) (s : State) (q : Params := params) : Result := logicInto (fun a b => a ||| b) m s q

/-- R202. -/
def opEor (m : AddrMode) (s : State) (q : Params := params) : Result := logicInto (fun a b => a ^^^ b) m s q

/-- R203: Z, N and V; A is unchanged. -/
def opBit (m : AddrMode) (s : State) (q : Params := params) : Result :=
  let r := m.load s q
  .next (r.2.writeP (r.2.p.bitTest r.2.a r.1))

/-- R204. -/
def opAdc (m : AddrMode) (s : State) (q : Params := params) : Result := arithInto addC m s q

/-- R205. -/
def opSbc (m : AddrMode) (s : State) (q : Params := params) : Result := arithInto subB m s q

/-- R206. -/
def opCmp (m : AddrMode) (s : State) (q : Params := params) : Result := compareWith State.a m s q

/-- R207. -/
def opCpx (m : AddrMode) (s : State) (q : Params := params) : Result := compareWith State.x m s q

/-- R208. -/
def opCpy (m : AddrMode) (s : State) (q : Params := params) : Result := compareWith State.y m s q

/-- R200, IMM. -/
def execAndImm (imm8 : Byte) (s : State) : Result := opAnd (.imm imm8) s

/-- R200, ZP. -/
def execAndZp (zp8 : Byte) (s : State) : Result := opAnd (.zp zp8) s

/-- R200, ZPX. -/
def execAndZpx (zp8 : Byte) (s : State) : Result := opAnd (.zpx zp8) s

/-- R200, ABS. -/
def execAndAbs (abs16 : Word) (s : State) : Result := opAnd (.abs abs16) s

/-- R200, ABSX. -/
def execAndAbsx (abs16 : Word) (s : State) : Result := opAnd (.absx abs16) s

/-- R200, ABSY. -/
def execAndAbsy (abs16 : Word) (s : State) : Result := opAnd (.absy abs16) s

/-- R200, INDX. -/
def execAndIndx (zp8 : Byte) (s : State) : Result := opAnd (.indx zp8) s

/-- R200, INDY. -/
def execAndIndy (zp8 : Byte) (s : State) : Result := opAnd (.indy zp8) s

/-- R201, IMM. -/
def execOraImm (imm8 : Byte) (s : State) : Result := opOra (.imm imm8) s

/-- R201, ZP. -/
def execOraZp (zp8 : Byte) (s : State) : Result := opOra (.zp zp8) s

/-- R201, ZPX. -/
def execOraZpx (zp8 : Byte) (s : State) : Result := opOra (.zpx zp8) s

/-- R201, ABS. -/
def execOraAbs (abs16 : Word) (s : State) : Result := opOra (.abs abs16) s

/-- R201, ABSX. -/
def execOraAbsx (abs16 : Word) (s : State) : Result := opOra (.absx abs16) s

/-- R201, ABSY. -/
def execOraAbsy (abs16 : Word) (s : State) : Result := opOra (.absy abs16) s

/-- R201, INDX. -/
def execOraIndx (zp8 : Byte) (s : State) : Result := opOra (.indx zp8) s

/-- R201, INDY. -/
def execOraIndy (zp8 : Byte) (s : State) : Result := opOra (.indy zp8) s

/-- R202, IMM. -/
def execEorImm (imm8 : Byte) (s : State) : Result := opEor (.imm imm8) s

/-- R202, ZP. -/
def execEorZp (zp8 : Byte) (s : State) : Result := opEor (.zp zp8) s

/-- R202, ZPX. -/
def execEorZpx (zp8 : Byte) (s : State) : Result := opEor (.zpx zp8) s

/-- R202, ABS. -/
def execEorAbs (abs16 : Word) (s : State) : Result := opEor (.abs abs16) s

/-- R202, ABSX. -/
def execEorAbsx (abs16 : Word) (s : State) : Result := opEor (.absx abs16) s

/-- R202, ABSY. -/
def execEorAbsy (abs16 : Word) (s : State) : Result := opEor (.absy abs16) s

/-- R202, INDX. -/
def execEorIndx (zp8 : Byte) (s : State) : Result := opEor (.indx zp8) s

/-- R202, INDY. -/
def execEorIndy (zp8 : Byte) (s : State) : Result := opEor (.indy zp8) s

/-- R203, ZP. -/
def execBitZp (zp8 : Byte) (s : State) : Result := opBit (.zp zp8) s

/-- R203, ABS. -/
def execBitAbs (abs16 : Word) (s : State) : Result := opBit (.abs abs16) s

/-- R204, IMM. -/
def execAdcImm (imm8 : Byte) (s : State) : Result := opAdc (.imm imm8) s

/-- R204, ZP. -/
def execAdcZp (zp8 : Byte) (s : State) : Result := opAdc (.zp zp8) s

/-- R204, ZPX. -/
def execAdcZpx (zp8 : Byte) (s : State) : Result := opAdc (.zpx zp8) s

/-- R204, ABS. -/
def execAdcAbs (abs16 : Word) (s : State) : Result := opAdc (.abs abs16) s

/-- R204, ABSX. -/
def execAdcAbsx (abs16 : Word) (s : State) : Result := opAdc (.absx abs16) s

/-- R204, ABSY. -/
def execAdcAbsy (abs16 : Word) (s : State) : Result := opAdc (.absy abs16) s

/-- R204, INDX. -/
def execAdcIndx (zp8 : Byte) (s : State) : Result := opAdc (.indx zp8) s

/-- R204, INDY. -/
def execAdcIndy (zp8 : Byte) (s : State) : Result := opAdc (.indy zp8) s

/-- R205, IMM. -/
def execSbcImm (imm8 : Byte) (s : State) : Result := opSbc (.imm imm8) s

/-- R205, ZP. -/
def execSbcZp (zp8 : Byte) (s : State) : Result := opSbc (.zp zp8) s

/-- R205, ZPX. -/
def execSbcZpx (zp8 : Byte) (s : State) : Result := opSbc (.zpx zp8) s

/-- R205, ABS. -/
def execSbcAbs (abs16 : Word) (s : State) : Result := opSbc (.abs abs16) s

/-- R205, ABSX. -/
def execSbcAbsx (abs16 : Word) (s : State) : Result := opSbc (.absx abs16) s

/-- R205, ABSY. -/
def execSbcAbsy (abs16 : Word) (s : State) : Result := opSbc (.absy abs16) s

/-- R205, INDX. -/
def execSbcIndx (zp8 : Byte) (s : State) : Result := opSbc (.indx zp8) s

/-- R205, INDY. -/
def execSbcIndy (zp8 : Byte) (s : State) : Result := opSbc (.indy zp8) s

/-- R206, IMM. -/
def execCmpImm (imm8 : Byte) (s : State) : Result := opCmp (.imm imm8) s

/-- R206, ZP. -/
def execCmpZp (zp8 : Byte) (s : State) : Result := opCmp (.zp zp8) s

/-- R206, ZPX. -/
def execCmpZpx (zp8 : Byte) (s : State) : Result := opCmp (.zpx zp8) s

/-- R206, ABS. -/
def execCmpAbs (abs16 : Word) (s : State) : Result := opCmp (.abs abs16) s

/-- R206, ABSX. -/
def execCmpAbsx (abs16 : Word) (s : State) : Result := opCmp (.absx abs16) s

/-- R206, ABSY. -/
def execCmpAbsy (abs16 : Word) (s : State) : Result := opCmp (.absy abs16) s

/-- R206, INDX. -/
def execCmpIndx (zp8 : Byte) (s : State) : Result := opCmp (.indx zp8) s

/-- R206, INDY. -/
def execCmpIndy (zp8 : Byte) (s : State) : Result := opCmp (.indy zp8) s

/-- R207, IMM. -/
def execCpxImm (imm8 : Byte) (s : State) : Result := opCpx (.imm imm8) s

/-- R207, ZP. -/
def execCpxZp (zp8 : Byte) (s : State) : Result := opCpx (.zp zp8) s

/-- R207, ABS. -/
def execCpxAbs (abs16 : Word) (s : State) : Result := opCpx (.abs abs16) s

/-- R208, IMM. -/
def execCpyImm (imm8 : Byte) (s : State) : Result := opCpy (.imm imm8) s

/-- R208, ZP. -/
def execCpyZp (zp8 : Byte) (s : State) : Result := opCpy (.zp zp8) s

/-- R208, ABS. -/
def execCpyAbs (abs16 : Word) (s : State) : Result := opCpy (.abs abs16) s

end Sys2Proof.Machine
end

