-- ==== Sys2Proof/Machine/TransferStack.lean ====
section
/-! DEFINITION. Register transfer and stack instructions (spec/47_transfer_stack.md R310-R319). -/

namespace Sys2Proof.Machine

/-- R310. -/
def execTax (s : State) : Result := .next ((s.writeX s.a).setNZ s.a)

/-- R311. -/
def execTay (s : State) : Result := .next ((s.writeY s.a).setNZ s.a)

/-- R312. -/
def execTxa (s : State) : Result := .next ((s.writeA s.x).setNZ s.x)

/-- R313. -/
def execTya (s : State) : Result := .next ((s.writeA s.y).setNZ s.y)

/-- R314. -/
def execTsx (s : State) : Result := .next ((s.writeX s.sp).setNZ s.sp)

/-- R315: no flags. -/
def execTxs (s : State) : Result := .next (s.writeSP s.x)

/-- PHA (R316). -/
def opPha (s : State) (q : Params := params) : Result := .next (s.push s.a q)

/-- PHP (R317): B and U of the live P are set too, where the parameter says so (D7). -/
def opPhp (s : State) (q : Params := params) : Result := .next (s.pushStatus q.pushSetsLiveBU q)

/-- PLA (R318): N and Z from the pulled byte. -/
def opPla (s : State) (q : Params := params) : Result :=
  let r := s.pull q
  .next ((r.2.writeA r.1).setNZ r.1)

/-- PLP (R319): B and U cleared. -/
def opPlp (s : State) (q : Params := params) : Result :=
  let r := s.pull q
  .next (r.2.writeP (Flags.plpLoad r.1))

/-- R316, IMP. -/
def execPha (s : State) : Result := opPha s

/-- R317, IMP. -/
def execPhp (s : State) : Result := opPhp s

/-- R318, IMP. -/
def execPla (s : State) : Result := opPla s

/-- R319, IMP. -/
def execPlp (s : State) : Result := opPlp s

end Sys2Proof.Machine
end

