-- ==== Sys2Proof/WellFormed.lean ====
section
/-! DEFINITION. What makes an instruction well formed. The fields of `Instr` have the exact widths of
spec/30_encoding.md R92, so every term of `Instr` passes; the checks bite on an instruction SPELLED as an operation,
a mode kind and a number (R100), where the pair may be illegal (R95) and the number may not fit its field (R92). -/

namespace Sys2Proof

/-- The mode kinds each mnemonic has: the filled columns of R95's row. -/
def Operation.modes : Operation → List Mode
  | .lda => [.imm, .zp, .zpx, .abs, .absx, .absy, .indx, .indy]
  | .ldx => [.imm, .zp, .zpy, .abs, .absy]
  | .ldy => [.imm, .zp, .zpx, .abs, .absx]
  | .sta => [.zp, .zpx, .abs, .absx, .absy, .indx, .indy]
  | .stx => [.zp, .zpy, .abs]
  | .sty => [.zp, .zpx, .abs]
  | .and => [.imm, .zp, .zpx, .abs, .absx, .absy, .indx, .indy]
  | .ora => [.imm, .zp, .zpx, .abs, .absx, .absy, .indx, .indy]
  | .eor => [.imm, .zp, .zpx, .abs, .absx, .absy, .indx, .indy]
  | .bit => [.zp, .abs]
  | .adc => [.imm, .zp, .zpx, .abs, .absx, .absy, .indx, .indy]
  | .sbc => [.imm, .zp, .zpx, .abs, .absx, .absy, .indx, .indy]
  | .cmp => [.imm, .zp, .zpx, .abs, .absx, .absy, .indx, .indy]
  | .cpx => [.imm, .zp, .abs]
  | .cpy => [.imm, .zp, .abs]
  | .inc => [.zp, .zpx, .abs, .absx]
  | .dec => [.zp, .zpx, .abs, .absx]
  | .inx => [.imp]
  | .iny => [.imp]
  | .dex => [.imp]
  | .dey => [.imp]
  | .asl => [.acc, .zp, .zpx, .abs, .absx]
  | .lsr => [.acc, .zp, .zpx, .abs, .absx]
  | .rol => [.acc, .zp, .zpx, .abs, .absx]
  | .ror => [.acc, .zp, .zpx, .abs, .absx]
  | .bcc => [.rel]
  | .bcs => [.rel]
  | .beq => [.rel]
  | .bne => [.rel]
  | .bmi => [.rel]
  | .bpl => [.rel]
  | .bvc => [.rel]
  | .bvs => [.rel]
  | .clc => [.imp]
  | .sec => [.imp]
  | .cld => [.imp]
  | .sed => [.imp]
  | .cli => [.imp]
  | .sei => [.imp]
  | .clv => [.imp]
  | .jmp => [.abs, .ind]
  | .jsr => [.abs]
  | .rts => [.imp]
  | .brk => [.imp]
  | .rti => [.imp]
  | .nop => [.imp]
  | .tax => [.imp]
  | .tay => [.imp]
  | .txa => [.imp]
  | .tya => [.imp]
  | .tsx => [.imp]
  | .txs => [.imp]
  | .pha => [.imp]
  | .php => [.imp]
  | .pla => [.imp]
  | .plp => [.imp]

/-- An instruction as it is spelled: an operation, a mode kind and the number in the operand field. -/
structure Spelled where
  op : Operation
  mode : Mode
  field : Nat
  deriving DecidableEq, Repr

/-- The (operation, mode) pair is in the table of R95. -/
def Spelled.pairLegal (w : Spelled) : Bool := w.op.modes.contains w.mode

/-- The number fits the mode's operand bytes (R91, R92); with no operand byte it is 0. -/
def Spelled.fieldFits (w : Spelled) : Bool := decide (w.field < 256 ^ w.mode.operandBytes)

/-- Both checks. -/
def Spelled.wellFormed (w : Spelled) : Bool := w.pairLegal && w.fieldFits

/-- The number in an operand's field. -/
def AddrMode.field : AddrMode → Nat
  | .imm v | .zp v | .zpx v | .zpy v | .indx v | .indy v | .rel v => v.toNat
  | .abs v | .absx v | .absy v | .ind v => v.toNat

/-- The number in an operand's field, 0 where there is none. -/
def Operand.field : Operand → Nat
  | .imp | .acc => 0
  | .addr m => m.field

/-- How an instruction is spelled. -/
def Instr.spelled (i : Instr) : Spelled := ⟨i.operation, i.mode, i.operand.field⟩

/-- An instruction is well formed when its spelling is. -/
def Instr.wellFormed (i : Instr) : Bool := i.spelled.wellFormed

end Sys2Proof
end

