-- ==== Sys2Proof/Decode.lean ====
section
/-! DEFINITION. `instruction_decoder` (spec/30_encoding.md R90-R99): the opcode map in the layout of R94, the decoder
of a list of bytes, and the encoder written from the other view of the table, R95 (opcodes by mnemonic). -/

namespace Sys2Proof

/-- One cell of the opcode map: an illegal byte, or a constructor that takes 0, 1 or 2 operand bytes (R90). -/
inductive Cell where
  | bad
  | one (i : Instr)
  | two (f : Byte → Instr)
  | three (f : Word → Instr)

/-- Row 0x of R94: opcodes 0x00 to 0x0F. -/
def opcodeRow0 : List Cell :=
  [.one .brk, .two .oraIndx, .bad, .bad,
   .bad, .two .oraZp, .two .aslZp, .bad,
   .one .php, .two .oraImm, .one .aslAcc, .bad,
   .bad, .three .oraAbs, .three .aslAbs, .bad]

/-- Row 1x of R94: opcodes 0x10 to 0x1F. -/
def opcodeRow1 : List Cell :=
  [.two .bpl, .two .oraIndy, .bad, .bad,
   .bad, .two .oraZpx, .two .aslZpx, .bad,
   .one .clc, .three .oraAbsy, .bad, .bad,
   .bad, .three .oraAbsx, .three .aslAbsx, .bad]

/-- Row 2x of R94: opcodes 0x20 to 0x2F. -/
def opcodeRow2 : List Cell :=
  [.three .jsrAbs, .two .andIndx, .bad, .bad,
   .two .bitZp, .two .andZp, .two .rolZp, .bad,
   .one .plp, .two .andImm, .one .rolAcc, .bad,
   .three .bitAbs, .three .andAbs, .three .rolAbs, .bad]

/-- Row 3x of R94: opcodes 0x30 to 0x3F. -/
def opcodeRow3 : List Cell :=
  [.two .bmi, .two .andIndy, .bad, .bad,
   .bad, .two .andZpx, .two .rolZpx, .bad,
   .one .sec, .three .andAbsy, .bad, .bad,
   .bad, .three .andAbsx, .three .rolAbsx, .bad]

/-- Row 4x of R94: opcodes 0x40 to 0x4F. -/
def opcodeRow4 : List Cell :=
  [.one .rti, .two .eorIndx, .bad, .bad,
   .bad, .two .eorZp, .two .lsrZp, .bad,
   .one .pha, .two .eorImm, .one .lsrAcc, .bad,
   .three .jmpAbs, .three .eorAbs, .three .lsrAbs, .bad]

/-- Row 5x of R94: opcodes 0x50 to 0x5F. -/
def opcodeRow5 : List Cell :=
  [.two .bvc, .two .eorIndy, .bad, .bad,
   .bad, .two .eorZpx, .two .lsrZpx, .bad,
   .one .cli, .three .eorAbsy, .bad, .bad,
   .bad, .three .eorAbsx, .three .lsrAbsx, .bad]

/-- Row 6x of R94: opcodes 0x60 to 0x6F. -/
def opcodeRow6 : List Cell :=
  [.one .rts, .two .adcIndx, .bad, .bad,
   .bad, .two .adcZp, .two .rorZp, .bad,
   .one .pla, .two .adcImm, .one .rorAcc, .bad,
   .three .jmpInd, .three .adcAbs, .three .rorAbs, .bad]

/-- Row 7x of R94: opcodes 0x70 to 0x7F. -/
def opcodeRow7 : List Cell :=
  [.two .bvs, .two .adcIndy, .bad, .bad,
   .bad, .two .adcZpx, .two .rorZpx, .bad,
   .one .sei, .three .adcAbsy, .bad, .bad,
   .bad, .three .adcAbsx, .three .rorAbsx, .bad]

/-- Row 8x of R94: opcodes 0x80 to 0x8F. -/
def opcodeRow8 : List Cell :=
  [.bad, .two .staIndx, .bad, .bad,
   .two .styZp, .two .staZp, .two .stxZp, .bad,
   .one .dey, .bad, .one .txa, .bad,
   .three .styAbs, .three .staAbs, .three .stxAbs, .bad]

/-- Row 9x of R94: opcodes 0x90 to 0x9F. -/
def opcodeRow9 : List Cell :=
  [.two .bcc, .two .staIndy, .bad, .bad,
   .two .styZpx, .two .staZpx, .two .stxZpy, .bad,
   .one .tya, .three .staAbsy, .one .txs, .bad,
   .bad, .three .staAbsx, .bad, .bad]

/-- Row Ax of R94: opcodes 0xA0 to 0xAF. -/
def opcodeRowA : List Cell :=
  [.two .ldyImm, .two .ldaIndx, .two .ldxImm, .bad,
   .two .ldyZp, .two .ldaZp, .two .ldxZp, .bad,
   .one .tay, .two .ldaImm, .one .tax, .bad,
   .three .ldyAbs, .three .ldaAbs, .three .ldxAbs, .bad]

/-- Row Bx of R94: opcodes 0xB0 to 0xBF. -/
def opcodeRowB : List Cell :=
  [.two .bcs, .two .ldaIndy, .bad, .bad,
   .two .ldyZpx, .two .ldaZpx, .two .ldxZpy, .bad,
   .one .clv, .three .ldaAbsy, .one .tsx, .bad,
   .three .ldyAbsx, .three .ldaAbsx, .three .ldxAbsy, .bad]

/-- Row Cx of R94: opcodes 0xC0 to 0xCF. -/
def opcodeRowC : List Cell :=
  [.two .cpyImm, .two .cmpIndx, .bad, .bad,
   .two .cpyZp, .two .cmpZp, .two .decZp, .bad,
   .one .iny, .two .cmpImm, .one .dex, .bad,
   .three .cpyAbs, .three .cmpAbs, .three .decAbs, .bad]

/-- Row Dx of R94: opcodes 0xD0 to 0xDF. -/
def opcodeRowD : List Cell :=
  [.two .bne, .two .cmpIndy, .bad, .bad,
   .bad, .two .cmpZpx, .two .decZpx, .bad,
   .one .cld, .three .cmpAbsy, .bad, .bad,
   .bad, .three .cmpAbsx, .three .decAbsx, .bad]

/-- Row Ex of R94: opcodes 0xE0 to 0xEF. -/
def opcodeRowE : List Cell :=
  [.two .cpxImm, .two .sbcIndx, .bad, .bad,
   .two .cpxZp, .two .sbcZp, .two .incZp, .bad,
   .one .inx, .two .sbcImm, .one .nop, .bad,
   .three .cpxAbs, .three .sbcAbs, .three .incAbs, .bad]

/-- Row Fx of R94: opcodes 0xF0 to 0xFF. -/
def opcodeRowF : List Cell :=
  [.two .beq, .two .sbcIndy, .bad, .bad,
   .bad, .two .sbcZpx, .two .incZpx, .bad,
   .one .sed, .three .sbcAbsy, .bad, .bad,
   .bad, .three .sbcAbsx, .three .incAbsx, .bad]

/-- The rows of R94, by the opcode's high nibble. -/
def opcodeRows : List (List Cell) :=
  [opcodeRow0, opcodeRow1, opcodeRow2, opcodeRow3, opcodeRow4, opcodeRow5, opcodeRow6, opcodeRow7,
   opcodeRow8, opcodeRow9, opcodeRowA, opcodeRowB, opcodeRowC, opcodeRowD, opcodeRowE, opcodeRowF]

/-- The cell of an opcode byte: high nibble the row, low nibble the column (R94). -/
def opcodeCell (b : Byte) : Cell :=
  ((opcodeRows[b.toNat / 16]?.getD [])[b.toNat % 16]?).getD .bad

/-- `lookup(opcodeByte) -> Option<(AddressingModeKind, OperationKind)>` of R93. -/
def lookup (b : Byte) : Option (Mode × Operation) :=
  match opcodeCell b with
  | .bad => none
  | .one i => some (i.mode, i.operation)
  | .two f => some ((f 0).mode, (f 0).operation)
  | .three f => some ((f 0).mode, (f 0).operation)

/-- The number of operand bytes after an opcode byte, read from that byte alone (R90); an illegal byte has none
(60_exceptions.md R330). -/
def operandCount (b : Byte) : Nat :=
  match opcodeCell b with
  | .bad | .one _ => 0
  | .two _ => 1
  | .three _ => 2

/-- Why a list of bytes is no instruction. -/
inductive DecodeError where
  /-- The first byte is one of the 105 illegal bytes (R96). -/
  | illegalOpcode (byte : Byte)
  /-- The list ends before the operand bytes of a legal opcode do; no fetch gives such a list. -/
  | truncated (byte : Byte)
  /-- There is no byte at all; no fetch gives such a list. -/
  | noBytes
  deriving DecidableEq, Repr

/-- The instruction at the head of a list of bytes and the bytes after it (R90, R92: abs16 and ptr16 low byte
first), or the reason there is none. -/
def decode : List Byte → Except DecodeError (Instr × List Byte)
  | [] => .error .noBytes
  | b :: rest =>
    match opcodeCell b with
    | .bad => .error (.illegalOpcode b)
    | .one i => .ok (i, rest)
    | .two f =>
      match rest with
      | v :: rest' => .ok (f v, rest')
      | [] => .error (.truncated b)
    | .three f =>
      match rest with
      | lo :: hi :: rest' => .ok (f (Machine.joinBytes lo hi), rest')
      | _ => .error (.truncated b)

/-- The (mode, opcode byte) pairs of each mnemonic: the rows of R95. -/
def Operation.opcodes : Operation → List (Mode × Byte)
  | .lda => [(.imm, 0xA9), (.zp, 0xA5), (.zpx, 0xB5), (.abs, 0xAD), (.absx, 0xBD), (.absy, 0xB9), (.indx, 0xA1), (.indy, 0xB1)]
  | .ldx => [(.imm, 0xA2), (.zp, 0xA6), (.zpy, 0xB6), (.abs, 0xAE), (.absy, 0xBE)]
  | .ldy => [(.imm, 0xA0), (.zp, 0xA4), (.zpx, 0xB4), (.abs, 0xAC), (.absx, 0xBC)]
  | .sta => [(.zp, 0x85), (.zpx, 0x95), (.abs, 0x8D), (.absx, 0x9D), (.absy, 0x99), (.indx, 0x81), (.indy, 0x91)]
  | .stx => [(.zp, 0x86), (.zpy, 0x96), (.abs, 0x8E)]
  | .sty => [(.zp, 0x84), (.zpx, 0x94), (.abs, 0x8C)]
  | .and => [(.imm, 0x29), (.zp, 0x25), (.zpx, 0x35), (.abs, 0x2D), (.absx, 0x3D), (.absy, 0x39), (.indx, 0x21), (.indy, 0x31)]
  | .ora => [(.imm, 0x09), (.zp, 0x05), (.zpx, 0x15), (.abs, 0x0D), (.absx, 0x1D), (.absy, 0x19), (.indx, 0x01), (.indy, 0x11)]
  | .eor => [(.imm, 0x49), (.zp, 0x45), (.zpx, 0x55), (.abs, 0x4D), (.absx, 0x5D), (.absy, 0x59), (.indx, 0x41), (.indy, 0x51)]
  | .bit => [(.zp, 0x24), (.abs, 0x2C)]
  | .adc => [(.imm, 0x69), (.zp, 0x65), (.zpx, 0x75), (.abs, 0x6D), (.absx, 0x7D), (.absy, 0x79), (.indx, 0x61), (.indy, 0x71)]
  | .sbc => [(.imm, 0xE9), (.zp, 0xE5), (.zpx, 0xF5), (.abs, 0xED), (.absx, 0xFD), (.absy, 0xF9), (.indx, 0xE1), (.indy, 0xF1)]
  | .cmp => [(.imm, 0xC9), (.zp, 0xC5), (.zpx, 0xD5), (.abs, 0xCD), (.absx, 0xDD), (.absy, 0xD9), (.indx, 0xC1), (.indy, 0xD1)]
  | .cpx => [(.imm, 0xE0), (.zp, 0xE4), (.abs, 0xEC)]
  | .cpy => [(.imm, 0xC0), (.zp, 0xC4), (.abs, 0xCC)]
  | .inc => [(.zp, 0xE6), (.zpx, 0xF6), (.abs, 0xEE), (.absx, 0xFE)]
  | .dec => [(.zp, 0xC6), (.zpx, 0xD6), (.abs, 0xCE), (.absx, 0xDE)]
  | .inx => [(.imp, 0xE8)]
  | .iny => [(.imp, 0xC8)]
  | .dex => [(.imp, 0xCA)]
  | .dey => [(.imp, 0x88)]
  | .asl => [(.acc, 0x0A), (.zp, 0x06), (.zpx, 0x16), (.abs, 0x0E), (.absx, 0x1E)]
  | .lsr => [(.acc, 0x4A), (.zp, 0x46), (.zpx, 0x56), (.abs, 0x4E), (.absx, 0x5E)]
  | .rol => [(.acc, 0x2A), (.zp, 0x26), (.zpx, 0x36), (.abs, 0x2E), (.absx, 0x3E)]
  | .ror => [(.acc, 0x6A), (.zp, 0x66), (.zpx, 0x76), (.abs, 0x6E), (.absx, 0x7E)]
  | .bcc => [(.rel, 0x90)]
  | .bcs => [(.rel, 0xB0)]
  | .beq => [(.rel, 0xF0)]
  | .bne => [(.rel, 0xD0)]
  | .bmi => [(.rel, 0x30)]
  | .bpl => [(.rel, 0x10)]
  | .bvc => [(.rel, 0x50)]
  | .bvs => [(.rel, 0x70)]
  | .clc => [(.imp, 0x18)]
  | .sec => [(.imp, 0x38)]
  | .cld => [(.imp, 0xD8)]
  | .sed => [(.imp, 0xF8)]
  | .cli => [(.imp, 0x58)]
  | .sei => [(.imp, 0x78)]
  | .clv => [(.imp, 0xB8)]
  | .jmp => [(.abs, 0x4C), (.ind, 0x6C)]
  | .jsr => [(.abs, 0x20)]
  | .rts => [(.imp, 0x60)]
  | .brk => [(.imp, 0x00)]
  | .rti => [(.imp, 0x40)]
  | .nop => [(.imp, 0xEA)]
  | .tax => [(.imp, 0xAA)]
  | .tay => [(.imp, 0xA8)]
  | .txa => [(.imp, 0x8A)]
  | .tya => [(.imp, 0x98)]
  | .tsx => [(.imp, 0xBA)]
  | .txs => [(.imp, 0x9A)]
  | .pha => [(.imp, 0x48)]
  | .php => [(.imp, 0x08)]
  | .pla => [(.imp, 0x68)]
  | .plp => [(.imp, 0x28)]

/-- The opcode byte of a (mnemonic, mode) pair, where R95 has one. -/
def opcodeOf (op : Operation) (m : Mode) : Option Byte := op.opcodes.lookup m

/-- The operand bytes of an address-producing operand, in address order (R91, R92). -/
def AddrMode.bytes : AddrMode → List Byte
  | .imm v | .zp v | .zpx v | .zpy v | .indx v | .indy v | .rel v => [v]
  | .abs w | .absx w | .absy w | .ind w => [Machine.lowByte w, Machine.highByte w]

/-- The operand bytes of an operand. -/
def Operand.bytes : Operand → List Byte
  | .imp | .acc => []
  | .addr m => m.bytes

/-- The bytes of an instruction, at increasing addresses (R90). The pair of an `Instr` is always in R95
(Laws/Encoding.lean), so the empty list is never answered. -/
def encode (i : Instr) : List Byte :=
  match opcodeOf i.operation i.mode with
  | some b => b :: i.operand.bytes
  | none => []

/-- A well-formed spelling assembled (R92, R95, R100): its opcode byte, then its field low byte first. -/
def Spelled.assemble (w : Spelled) : Option (List Byte) :=
  match w.wellFormed, opcodeOf w.op w.mode with
  | true, some b =>
    some (b :: [BitVec.ofNat 8 w.field, BitVec.ofNat 8 (w.field / 256)].take w.mode.operandBytes)
  | _, _ => none

/-- The operand byte of a branch at `here` whose target is `target` (R100): target - (here + 2), which must lie in
-128..+127. -/
def branchField (here target : Word) : Option Byte :=
  let d := target - (here + 2)
  let b := Machine.lowByte d
  if Machine.sext16 b = d then some b else none

/-- The bytes of an instruction numbered as spec/opcode_table.json numbers bits: byte k is bits 8k+7 to 8k, the first
`nbits` bits are those of `w` and every bit above them is 0, up to the longest instruction's three bytes. -/
def tableBytes (nbits w : Nat) : List Byte :=
  let v := w % 2 ^ nbits
  [BitVec.ofNat 8 v, BitVec.ofNat 8 (v / 256), BitVec.ofNat 8 (v / 65536)]

/-- The instruction this decoder reads from an instruction whose bits are `w`, numbered as the table numbers them. -/
def decodeTableWord (nbits w : Nat) : Option Instr :=
  match decode (tableBytes nbits w) with
  | .ok (i, _) => some i
  | .error _ => none

end Sys2Proof
end

