-- ==== Sys2Proof/Machine/Fetch.lean ====
section
/-! DEFINITION. Fetching an instruction (spec/40_dispatch_addressing.md R121, R125, R126): the opcode byte, then the
operand bytes it calls for, each by `fetch()`, read by the ONE decoder of Sys2Proof/Decode.lean. -/

namespace Sys2Proof.Machine

/-- What a fetch finds. -/
inductive Fetched where
  /-- A legal instruction, PC past its bytes (R140). -/
  | instr (i : Instr) (s : State)
  /-- An illegal opcode byte, PC past that byte (60_exceptions.md R330). -/
  | illegal (s : State)

/-- `n` calls of `fetch()`: the bytes in the order they were read, PC past them. -/
def State.fetchMany (n : Nat) (s : State) (q : Params := params) : List Byte × State :=
  match n with
  | 0 => ([], s)
  | n + 1 =>
    let b := s.fetch q
    let r := State.fetchMany n b.2 q
    (b.1 :: r.1, r.2)

/-- A call of `step()` begins: nothing on the bus yet and no report. -/
def State.beginStep (s : State) : State := { s with lastResult := .ok, bus := [] }

/-- `raise IllegalOpcode(byte, addr)` (R330): the report is all that changes. -/
def State.reportIllegal (s : State) (byte : Byte) (addr : Word) : State :=
  { s with lastResult := .illegalOpcode byte addr }

/-- The fetch part of R121. An illegal byte's operand bytes are not fetched (R330). -/
def State.fetchInstr (s : State) (q : Params := params) : Fetched :=
  let op := s.fetch q
  let rest := State.fetchMany (operandCount op.1) op.2 q
  match decode (op.1 :: rest.1) with
  | .ok (i, _) => .instr i rest.2
  | .error _ => .illegal (op.2.reportIllegal op.1 s.pc)

/-- Bytes stored at consecutive addresses from `addr` on, mod 65536, by no bus transaction: a load from outside. -/
def Memory.placeBytes (m : Memory) (addr : Word) : List Byte → Memory
  | [] => m
  | b :: rest => Memory.placeBytes (m.write addr.toNat b) (addr + 1) rest

/-- `State` with bytes stored where the next fetch reads. -/
def State.placeAtPC (s : State) (bytes : List Byte) : State := { s with mem := s.mem.placeBytes s.pc bytes }

end Sys2Proof.Machine
end

