-- ==== Sys2Proof/Machine/Step.lean ====
section
/-! DEFINITION. One call of `step()` (spec/40_dispatch_addressing.md R121): fetch, then execute or report. The report
of an illegal opcode is no stop: execution continues (60_exceptions.md R330), so it is a next state. -/

namespace Sys2Proof.Machine

/-- `step()` of R121. -/
def step (s : State) : Host.Outcome State Fault Refusal :=
  match s.beginStep.fetchInstr with
  | .instr i s' => exec i s'
  | .illegal s' => .next s'

/-- `s` with the instruction whose bits are `w` stored where the next step fetches (log entry 8): at PC and the two
addresses after it, mod 65536. -/
def State.withFetchWord (s : State) (nbits w : Nat) : State := s.placeAtPC (tableBytes nbits w)

end Sys2Proof.Machine
end

