-- ==== Sys2Proof/Machine/AnyParams.lean ====
section
/-! DEFINITION. The machine as a function of its parameters (spec/00_scope.md R7): any memory collaborator, as
20_memory.md R61 asks, and either setting of the two behaviour parameters. `exec` and `step` are these at `params`
(Laws/AnyParams.lean). -/

namespace Sys2Proof.Machine

/-- What an instruction does under parameters `q`. The instructions that touch no memory and no parameter have one
meaning under all. -/
def execIn (q : Params) (i : Instr) (s : State) : Result :=
  match i with
  | .ldaImm imm8 => opLda (.imm imm8) s q
  | .ldaZp zp8 => opLda (.zp zp8) s q
  | .ldaZpx zp8 => opLda (.zpx zp8) s q
  | .ldaAbs abs16 => opLda (.abs abs16) s q
  | .ldaAbsx abs16 => opLda (.absx abs16) s q
  | .ldaAbsy abs16 => opLda (.absy abs16) s q
  | .ldaIndx zp8 => opLda (.indx zp8) s q
  | .ldaIndy zp8 => opLda (.indy zp8) s q
  | .ldxImm imm8 => opLdx (.imm imm8) s q
  | .ldxZp zp8 => opLdx (.zp zp8) s q
  | .ldxZpy zp8 => opLdx (.zpy zp8) s q
  | .ldxAbs abs16 => opLdx (.abs abs16) s q
  | .ldxAbsy abs16 => opLdx (.absy abs16) s q
  | .ldyImm imm8 => opLdy (.imm imm8) s q
  | .ldyZp zp8 => opLdy (.zp zp8) s q
  | .ldyZpx zp8 => opLdy (.zpx zp8) s q
  | .ldyAbs abs16 => opLdy (.abs abs16) s q
  | .ldyAbsx abs16 => opLdy (.absx abs16) s q
  | .staZp zp8 => opSta (.zp zp8) s q
  | .staZpx zp8 => opSta (.zpx zp8) s q
  | .staAbs abs16 => opSta (.abs abs16) s q
  | .staAbsx abs16 => opSta (.absx abs16) s q
  | .staAbsy abs16 => opSta (.absy abs16) s q
  | .staIndx zp8 => opSta (.indx zp8) s q
  | .staIndy zp8 => opSta (.indy zp8) s q
  | .stxZp zp8 => opStx (.zp zp8) s q
  | .stxZpy zp8 => opStx (.zpy zp8) s q
  | .stxAbs abs16 => opStx (.abs abs16) s q
  | .styZp zp8 => opSty (.zp zp8) s q
  | .styZpx zp8 => opSty (.zpx zp8) s q
  | .styAbs abs16 => opSty (.abs abs16) s q
  | .andImm imm8 => opAnd (.imm imm8) s q
  | .andZp zp8 => opAnd (.zp zp8) s q
  | .andZpx zp8 => opAnd (.zpx zp8) s q
  | .andAbs abs16 => opAnd (.abs abs16) s q
  | .andAbsx abs16 => opAnd (.absx abs16) s q
  | .andAbsy abs16 => opAnd (.absy abs16) s q
  | .andIndx zp8 => opAnd (.indx zp8) s q
  | .andIndy zp8 => opAnd (.indy zp8) s q
  | .oraImm imm8 => opOra (.imm imm8) s q
  | .oraZp zp8 => opOra (.zp zp8) s q
  | .oraZpx zp8 => opOra (.zpx zp8) s q
  | .oraAbs abs16 => opOra (.abs abs16) s q
  | .oraAbsx abs16 => opOra (.absx abs16) s q
  | .oraAbsy abs16 => opOra (.absy abs16) s q
  | .oraIndx zp8 => opOra (.indx zp8) s q
  | .oraIndy zp8 => opOra (.indy zp8) s q
  | .eorImm imm8 => opEor (.imm imm8) s q
  | .eorZp zp8 => opEor (.zp zp8) s q
  | .eorZpx zp8 => opEor (.zpx zp8) s q
  | .eorAbs abs16 => opEor (.abs abs16) s q
  | .eorAbsx abs16 => opEor (.absx abs16) s q
  | .eorAbsy abs16 => opEor (.absy abs16) s q
  | .eorIndx zp8 => opEor (.indx zp8) s q
  | .eorIndy zp8 => opEor (.indy zp8) s q
  | .bitZp zp8 => opBit (.zp zp8) s q
  | .bitAbs abs16 => opBit (.abs abs16) s q
  | .adcImm imm8 => opAdc (.imm imm8) s q
  | .adcZp zp8 => opAdc (.zp zp8) s q
  | .adcZpx zp8 => opAdc (.zpx zp8) s q
  | .adcAbs abs16 => opAdc (.abs abs16) s q
  | .adcAbsx abs16 => opAdc (.absx abs16) s q
  | .adcAbsy abs16 => opAdc (.absy abs16) s q
  | .adcIndx zp8 => opAdc (.indx zp8) s q
  | .adcIndy zp8 => opAdc (.indy zp8) s q
  | .sbcImm imm8 => opSbc (.imm imm8) s q
  | .sbcZp zp8 => opSbc (.zp zp8) s q
  | .sbcZpx zp8 => opSbc (.zpx zp8) s q
  | .sbcAbs abs16 => opSbc (.abs abs16) s q
  | .sbcAbsx abs16 => opSbc (.absx abs16) s q
  | .sbcAbsy abs16 => opSbc (.absy abs16) s q
  | .sbcIndx zp8 => opSbc (.indx zp8) s q
  | .sbcIndy zp8 => opSbc (.indy zp8) s q
  | .cmpImm imm8 => opCmp (.imm imm8) s q
  | .cmpZp zp8 => opCmp (.zp zp8) s q
  | .cmpZpx zp8 => opCmp (.zpx zp8) s q
  | .cmpAbs abs16 => opCmp (.abs abs16) s q
  | .cmpAbsx abs16 => opCmp (.absx abs16) s q
  | .cmpAbsy abs16 => opCmp (.absy abs16) s q
  | .cmpIndx zp8 => opCmp (.indx zp8) s q
  | .cmpIndy zp8 => opCmp (.indy zp8) s q
  | .cpxImm imm8 => opCpx (.imm imm8) s q
  | .cpxZp zp8 => opCpx (.zp zp8) s q
  | .cpxAbs abs16 => opCpx (.abs abs16) s q
  | .cpyImm imm8 => opCpy (.imm imm8) s q
  | .cpyZp zp8 => opCpy (.zp zp8) s q
  | .cpyAbs abs16 => opCpy (.abs abs16) s q
  | .incZp zp8 => opInc (.zp zp8) s q
  | .incZpx zp8 => opInc (.zpx zp8) s q
  | .incAbs abs16 => opInc (.abs abs16) s q
  | .incAbsx abs16 => opInc (.absx abs16) s q
  | .decZp zp8 => opDec (.zp zp8) s q
  | .decZpx zp8 => opDec (.zpx zp8) s q
  | .decAbs abs16 => opDec (.abs abs16) s q
  | .decAbsx abs16 => opDec (.absx abs16) s q
  | .inx => execInx s
  | .iny => execIny s
  | .dex => execDex s
  | .dey => execDey s
  | .aslAcc => execAslAcc s
  | .aslZp zp8 => opAsl (.zp zp8) s q
  | .aslZpx zp8 => opAsl (.zpx zp8) s q
  | .aslAbs abs16 => opAsl (.abs abs16) s q
  | .aslAbsx abs16 => opAsl (.absx abs16) s q
  | .lsrAcc => execLsrAcc s
  | .lsrZp zp8 => opLsr (.zp zp8) s q
  | .lsrZpx zp8 => opLsr (.zpx zp8) s q
  | .lsrAbs abs16 => opLsr (.abs abs16) s q
  | .lsrAbsx abs16 => opLsr (.absx abs16) s q
  | .rolAcc => execRolAcc s
  | .rolZp zp8 => opRol (.zp zp8) s q
  | .rolZpx zp8 => opRol (.zpx zp8) s q
  | .rolAbs abs16 => opRol (.abs abs16) s q
  | .rolAbsx abs16 => opRol (.absx abs16) s q
  | .rorAcc => execRorAcc s
  | .rorZp zp8 => opRor (.zp zp8) s q
  | .rorZpx zp8 => opRor (.zpx zp8) s q
  | .rorAbs abs16 => opRor (.abs abs16) s q
  | .rorAbsx abs16 => opRor (.absx abs16) s q
  | .bcc rel8 => execBcc rel8 s
  | .bcs rel8 => execBcs rel8 s
  | .beq rel8 => execBeq rel8 s
  | .bne rel8 => execBne rel8 s
  | .bmi rel8 => execBmi rel8 s
  | .bpl rel8 => execBpl rel8 s
  | .bvc rel8 => execBvc rel8 s
  | .bvs rel8 => execBvs rel8 s
  | .clc => execClc s
  | .sec => execSec s
  | .cld => execCld s
  | .sed => execSed s
  | .cli => execCli s
  | .sei => execSei s
  | .clv => execClv s
  | .jmpAbs abs16 => jumpTo (.abs abs16) s q
  | .jmpInd ptr16 => jumpTo (.ind ptr16) s q
  | .jsrAbs abs16 => callTo (.abs abs16) s q
  | .rts => opRts s q
  | .brk => opBrk s q
  | .rti => opRti s q
  | .nop => execNop s
  | .tax => execTax s
  | .tay => execTay s
  | .txa => execTxa s
  | .tya => execTya s
  | .tsx => execTsx s
  | .txs => execTxs s
  | .pha => opPha s q
  | .php => opPhp s q
  | .pla => opPla s q
  | .plp => opPlp s q

/-- `step()` of 40_dispatch_addressing.md R121 under parameters `q`. -/
def stepIn (q : Params) (s : State) : Result :=
  match s.beginStep.fetchInstr q with
  | .instr i s' => execIn q i s'
  | .illegal s' => .next s'

end Sys2Proof.Machine
end

