-- ==== Sys2Proof/Machine/HostCalls.lean ====
section
/-! DEFINITION. What the host can do between steps (spec/00_scope.md R5; 10_state.md R38; 60_exceptions.md R344;
70_reset_and_hazards.md R360-R364): `reset()`, `step()`, and reading and writing each register and flag. -/

namespace Sys2Proof.Machine

/-- The registers and flags an accessor names (R38). -/
inductive HostReg where
  | a | x | y | sp | pc | p
  | flagC | flagZ | flagI | flagD | flagB | flagU | flagV | flagN
  deriving DecidableEq, Repr

/-- `Get(r)` of R38: the current value. -/
def State.get (s : State) : HostReg → Nat
  | .a => s.a.toNat
  | .x => s.x.toNat
  | .y => s.y.toNat
  | .sp => s.sp.toNat
  | .pc => s.pc.toNat
  | .p => s.p.toByte.toNat
  | .flagC => s.p.c.toNat
  | .flagZ => s.p.z.toNat
  | .flagI => s.p.i.toNat
  | .flagD => s.p.d.toNat
  | .flagB => s.p.b.toNat
  | .flagU => s.p.u.toNat
  | .flagV => s.p.v.toNat
  | .flagN => s.p.n.toNat

/-- `Set(r, v)` of R38: the value truncated to the width of `r`, no other state touched, no bit forced. -/
def State.set (s : State) (r : HostReg) (v : Nat) : State :=
  match r with
  | .a => s.writeA (BitVec.ofNat 8 v)
  | .x => s.writeX (BitVec.ofNat 8 v)
  | .y => s.writeY (BitVec.ofNat 8 v)
  | .sp => s.writeSP (BitVec.ofNat 8 v)
  | .pc => s.writePC (BitVec.ofNat 16 v)
  | .p => s.writeP (Flags.ofByte (BitVec.ofNat 8 v))
  | .flagC => s.writeP { s.p with c := v.testBit 0 }
  | .flagZ => s.writeP { s.p with z := v.testBit 0 }
  | .flagI => s.writeP { s.p with i := v.testBit 0 }
  | .flagD => s.writeP { s.p with d := v.testBit 0 }
  | .flagB => s.writeP { s.p with b := v.testBit 0 }
  | .flagU => s.writeP { s.p with u := v.testBit 0 }
  | .flagV => s.writeP { s.p with v := v.testBit 0 }
  | .flagN => s.writeP { s.p with n := v.testBit 0 }

/-- `reset()` of R361. The two vector reads are its only bus transactions, it writes no memory (R362), and it reports
nothing. -/
def State.resetCall (s : State) (q : Params := params) : State :=
  let s1 : State := { s.beginStep with a := 0x00, x := 0x00, y := 0x00, sp := 0xFF, p := Flags.initial }
  let v := s1.memRead16 Config.resetVector (Config.resetVector + 1) q
  v.2.writePC v.1

/-- Construction, loading and `reset()` in the order of R364. -/
def State.boot (mem : Memory) (q : Params := params) : State := (State.powerOn mem).resetCall q

/-- A call of the host that may change the machine (R344). -/
inductive HostCall where
  | reset
  | step
  | set (r : HostReg) (v : Nat)
  deriving DecidableEq, Repr

/-- The machine after a call of the host. -/
def hostCall (c : HostCall) (s : State) : Result :=
  match c with
  | .reset => .next s.resetCall
  | .step => step s
  | .set r v => .next (s.set r v)

/-- The numeric code of a step's result (60_exceptions.md R331, D16). -/
def StepResult.code : StepResult → Nat
  | .ok => 0
  | .illegalOpcode _ _ => 1

end Sys2Proof.Machine
end

