-- ==== Sys2Proof/Safety.lean ====
section
/-! DEFINITION. The terms claims are stated in: what holds of a good state, what the bus of a step should show, and
which instructions write what. Nothing here is used by the machine. -/

namespace Sys2Proof

open Machine

namespace Machine

/-! ### Good states -/

/-- A report of an illegal opcode names a byte that is illegal and the address just before PC (60_exceptions.md R330,
as a step leaves it). -/
def State.reportHonest (s : State) : Bool :=
  match s.lastResult with
  | .ok => true
  | .illegalOpcode byte addr => (lookup byte == none) && (s.pc == addr + 1)

/-- What every step keeps: canonical memory, an honest report, and no more transactions than the longest instruction
makes (BRK: one fetch, three pushes, two vector reads). -/
abbrev State.Inv (s : State) : Prop := s.mem.wf = true ∧ s.reportHonest = true ∧ s.bus.length ≤ 6

/-! ### The bus -/

/-- The read of an address in a state, with the byte it returns there. -/
def State.readAt (s : State) (addr : Word) : BusAccess := .read addr (s.byteAt addr)

/-- The memory after a list of transactions, if every read among them returned what the memory held at that point
(20_memory.md R76): a collaborator of R61, by default this hardware's, answering them one by one. -/
def replay (m : Memory) (l : List BusAccess) (mm : MemModel := memModel) : Option Memory :=
  match l with
  | [] => some m
  | .read addr v :: rest => if (mm.read m addr).1 = v then replay (mm.read m addr).2 rest mm else none
  | .write addr v :: rest => replay (mm.write m addr v) rest mm

/-- The three bytes from PC on, mod 65536: as many as the longest instruction has. -/
def State.codeBytes (s : State) : List Byte := [s.byteAt s.pc, s.byteAt (s.pc + 1), s.byteAt (s.pc + 2)]

/-- The reads of an instruction of `n` bytes at PC, in address order (R78 phases 1 and 2). -/
def State.codeReads (s : State) (n : Nat) : List BusAccess :=
  [s.readAt s.pc, s.readAt (s.pc + 1), s.readAt (s.pc + 2)].take n

/-- The state an operation starts from when the instruction at PC has `n` bytes (R140): PC past them, their reads on
the bus, nothing else changed but the report of the call before. -/
def State.afterFetch (s : State) (n : Nat) : State :=
  { s with pc := s.pc + BitVec.ofNat 16 n, lastResult := .ok, bus := s.codeReads n }

end Machine

/-- The pointer reads of the indirect modes, low byte then high byte (R78 phase 2, R136-R138). -/
def AddrMode.pointerReads (m : AddrMode) (s : State) : List BusAccess :=
  match m with
  | .ind ptr => [s.readAt ptr, s.readAt (indHighAddr jmpIndPageWrap ptr)]
  | .indx b => [s.readAt (zext16 (b + s.x)), s.readAt (zext16 (b + s.x) + 1)]
  | .indy b => [s.readAt (zext16 b), s.readAt (zext16 b + 1)]
  | _ => []

/-- The reads that get an operand's value once the instruction's bytes are fetched: the immediate byte is among those
already. -/
def AddrMode.operandReads (m : AddrMode) (s : State) : List BusAccess :=
  match m with
  | .imm _ => []
  | m => m.pointerReads s ++ [s.readAt (m.ea s)]

/-! ### Which instructions do what -/

/-- Instructions that write memory at their effective address without reading it. -/
def Operation.isStore (op : Operation) : Bool := [Operation.sta, .stx, .sty].contains op

/-- Instructions that push. -/
def Operation.isPush (op : Operation) : Bool := [Operation.pha, .php, .jsr, .brk].contains op

/-- Instructions that read and then write their operand (with an address operand; ACC forms write A). -/
def Operation.isModify (op : Operation) : Bool :=
  [Operation.inc, .dec, .asl, .lsr, .rol, .ror].contains op

/-- Instructions that read their operand and write no memory. -/
def Operation.isRead (op : Operation) : Bool :=
  [Operation.lda, .ldx, .ldy, .and, .ora, .eor, .bit, .adc, .sbc, .cmp, .cpx, .cpy].contains op

/-- The eight conditional branches. -/
def Operation.isBranch (op : Operation) : Bool :=
  [Operation.bcc, .bcs, .beq, .bne, .bmi, .bpl, .bvc, .bvs].contains op

/-- Instructions that may load PC with a target (10_state.md R39). -/
def Operation.setsPC (op : Operation) : Bool :=
  op.isBranch || [Operation.jmp, .jsr, .rts, .brk, .rti].contains op

/-- An instruction writes memory: a store, a push, or a read-modify-write with an address operand. -/
def Instr.writesMemory (i : Instr) : Bool :=
  i.operation.isStore || i.operation.isPush || (i.operation.isModify && (i.operand != .acc))

/-- The 105 illegal bytes, as R96 of 30_encoding.md lists them. -/
def illegalBytes : List Byte :=
  [0x02, 0x03, 0x04, 0x07, 0x0B, 0x0C, 0x0F, 0x12, 0x13, 0x14, 0x17, 0x1A, 0x1B, 0x1C, 0x1F,
   0x22, 0x23, 0x27, 0x2B, 0x2F, 0x32, 0x33, 0x34, 0x37, 0x3A, 0x3B, 0x3C, 0x3F, 0x42, 0x43,
   0x44, 0x47, 0x4B, 0x4F, 0x52, 0x53, 0x54, 0x57, 0x5A, 0x5B, 0x5C, 0x5F, 0x62, 0x63, 0x64,
   0x67, 0x6B, 0x6F, 0x72, 0x73, 0x74, 0x77, 0x7A, 0x7B, 0x7C, 0x7F, 0x80, 0x82, 0x83, 0x87,
   0x89, 0x8B, 0x8F, 0x92, 0x93, 0x97, 0x9B, 0x9C, 0x9E, 0x9F, 0xA3, 0xA7, 0xAB, 0xAF, 0xB2,
   0xB3, 0xB7, 0xBB, 0xBF, 0xC2, 0xC3, 0xC7, 0xCB, 0xCF, 0xD2, 0xD3, 0xD4, 0xD7, 0xDA, 0xDB,
   0xDC, 0xDF, 0xE2, 0xE3, 0xE7, 0xEB, 0xEF, 0xF2, 0xF3, 0xF4, 0xF7, 0xFA, 0xFB, 0xFC, 0xFF]

namespace Machine

/-- The effective address of the instruction at PC in Nat arithmetic, read from the bytes in memory, for the mode
kinds whose rule stands without a parameter (40_dispatch_addressing.md R129-R135, R137-R139); none for IMP and ACC,
which have no address, and for IND, whose rule R136 has one. -/
def State.tableAddress (s : State) (mode : Mode) : Option Nat :=
  let b1 := (s.byteAt (s.pc + 1)).toNat
  let w := b1 + 256 * (s.byteAt (s.pc + 2)).toNat
  let px := (b1 + s.x.toNat) % 256
  match mode with
  | .imm => some ((s.pc.toNat + 1) % 65536)
  | .zp => some b1
  | .zpx => some px
  | .zpy => some ((b1 + s.y.toNat) % 256)
  | .abs => some w
  | .absx => some ((w + s.x.toNat) % 65536)
  | .absy => some ((w + s.y.toNat) % 65536)
  | .indx => some ((s.mem.read px).toNat + 256 * (s.mem.read (px + 1)).toNat)
  | .indy => some (((s.mem.read b1).toNat + 256 * (s.mem.read (b1 + 1)).toNat + s.y.toNat) % 65536)
  | .rel => some (((s.pc.toNat : Int) + 2 + (s.byteAt (s.pc + 1)).toInt) % 65536).toNat
  | .imp | .acc | .ind => none

/-- The addresses a pushing instruction stores to (20_memory.md R72, R74): one for PHA and PHP, two for JSR, three for
BRK, from the stack pointer down. -/
def pushSlots (op : Operation) (sp : Byte) : List Word :=
  match op with
  | .pha | .php => [stackAddr sp]
  | .jsr => [stackAddr sp, stackAddr (sp - 1)]
  | .brk => [stackAddr sp, stackAddr (sp - 1), stackAddr (sp - 2)]
  | _ => []

/-- The width in bits of what an accessor names (10_state.md R38). -/
def HostReg.width : HostReg → Nat
  | .a | .x | .y | .sp | .p => 8
  | .pc => 16
  | .flagC | .flagZ | .flagI | .flagD | .flagB | .flagU | .flagV | .flagN => 1

/-- What an accessor names is one of the eight flags. -/
def HostReg.isFlag (r : HostReg) : Bool := r.width == 1

/-- Two accessors name state in common: the same register, or P and one of its flags. -/
def HostReg.overlaps (r q : HostReg) : Bool :=
  (r == q) || ((r == .p) && q.isFlag) || ((q == .p) && r.isFlag)

/-- The byte a read-modify-write instruction writes back (41_alu.md R156-R160). -/
def modified (op : Operation) (v : Byte) (cin : Bool) : Byte :=
  match op with
  | .inc => inc8 v
  | .dec => dec8 v
  | .asl => (asl v cin).1
  | .lsr => (lsr v cin).1
  | .rol => (rol v cin).1
  | .ror => (ror v cin).1
  | _ => v

/-- The register a store writes to memory. -/
def State.storedBy (s : State) (op : Operation) : Byte :=
  match op with
  | .stx => s.x
  | .sty => s.y
  | _ => s.a

/-- The transactions of an operation once its instruction is fetched, in the order of 20_memory.md R78: the resolver's
pointer reads, then the operation's own accesses. -/
def opAccesses (i : Instr) (s : State) : List BusAccess :=
  match i.operand with
  | .addr m =>
    if i.operation.isRead then m.operandReads s
    else if i.operation.isStore then m.pointerReads s ++ [.write (m.ea s) (s.storedBy i.operation)]
    else if i.operation.isModify then
      m.operandReads s ++ [.write (m.ea s) (modified i.operation (m.value s) s.p.c)]
    else if i.operation = .jsr then
      [.write (stackAddr s.sp) (highByte (s.pc - 1)), .write (stackAddr (s.sp - 1)) (lowByte (s.pc - 1))]
    else m.pointerReads s
  | .acc => []
  | .imp =>
    match i.operation with
    | .pha => [.write (stackAddr s.sp) s.a]
    | .php => [.write (stackAddr s.sp) s.p.pushImage]
    | .pla | .plp => [s.readAt (stackAddr (s.sp + 1))]
    | .rts => [s.readAt (stackAddr (s.sp + 1)), s.readAt (stackAddr (s.sp + 2))]
    | .rti =>
      [s.readAt (stackAddr (s.sp + 1)), s.readAt (stackAddr (s.sp + 2)), s.readAt (stackAddr (s.sp + 3))]
    | .brk =>
      [.write (stackAddr s.sp) (highByte (s.pc + 1)), .write (stackAddr (s.sp - 1)) (lowByte (s.pc + 1)),
       .write (stackAddr (s.sp - 2)) s.p.pushImage, s.readAt Config.brkVector, s.readAt (Config.brkVector + 1)]
    | _ => []

/-- A next state with a function applied to it; a stop as it is. -/
def mapNext (f : State → State) : Result → Result
  | .next s => .next (f s)
  | .fault r => .fault r
  | .refused r => .refused r

/-- The next state, if there is one. -/
def nextState? : Result → Option State
  | .next s => some s
  | _ => none

end Machine

end Sys2Proof
end

