-- ==== Sys2Proof/Certificates/Slice0/Obligations.lean ====
section
/-! DEFINITION. The statements for the provers. Each docstring names the rules of spec/ it formalises. `exec` starts
from the state of 40_dispatch_addressing.md R140: PC is the address of the next instruction. Where a result leaves the
`bus` field open (`∃ b`), its transactions are those of StepMakesItsTransactionsInOrder; where it names them, their order
is the spec's decision D3 and the field is the model's own (log entry 4). -/

open Sys2Proof Sys2Proof.Machine

/-! ### Encoding and decoding -/

/-- Decoding an encoded instruction gives it back, whatever bytes follow (30_encoding.md R90, R92, R94, R95; the opcode
bytes are the spec's decision D11). -/
def Obligations.DecodeOfEncodeIsIdentity : Prop :=
  ∀ (i : Instr) (rest : List Byte), decode (encode i ++ rest) = .ok (i, rest)

/-- Whatever decodes is the encoding of what it decodes to: no two encodings overlap and none is accepted twice. -/
def Obligations.DecodedBytesAreTheEncoding : Prop :=
  ∀ (bs : List Byte) (i : Instr) (rest : List Byte), decode bs = .ok (i, rest) → bs = encode i ++ rest

/-- Every well-formed spelling, a legal pair with a field that fits, assembles to bytes that decode to an instruction
spelled so (R92, R95, R100). -/
def Obligations.WellFormedSpellingsAssembleAndDecode : Prop :=
  ∀ w : Spelled, w.wellFormed = true →
    ∃ (bs : List Byte) (i : Instr), w.assemble = some bs ∧ decode bs = .ok (i, []) ∧ i.spelled = w

/-- Words written out from the spec, one or more per family, decode to the instructions they stand for, and 0x02 is
refused by name (42 to 47, Encoding lines; the bytes are the spec's decision D11). -/
def Obligations.WrittenOutWordsDecode : Prop :=
  decode [0b10101001, 0x00] = .ok (.ldaImm 0x00, []) ∧
  decode [0b10001101, 0x00, 0x02] = .ok (.staAbs 0x0200, []) ∧
  decode [0b01110001, 0x20] = .ok (.adcIndy 0x20, []) ∧
  decode [0b11000001, 0x10] = .ok (.cmpIndx 0x10, []) ∧
  decode [0b01101010] = .ok (.rorAcc, []) ∧
  decode [0b11111110, 0xFF, 0x12] = .ok (.incAbsx 0x12FF, []) ∧
  decode [0b11010000, 0xF8] = .ok (.bne 0xF8, []) ∧
  decode [0b10111000] = .ok (.clv, []) ∧
  decode [0b01101100, 0xFF, 0x10] = .ok (.jmpInd 0x10FF, []) ∧
  decode [0b00000000, 0xEA] = .ok (.brk, [0xEA]) ∧
  decode [0b10010110, 0xFF] = .ok (.stxZpy 0xFF, []) ∧
  decode [0b00101000] = .ok (.plp, []) ∧
  decode [0x02] = .error (.illegalOpcode 0x02)

/-- The decoder's table by opcode byte (R94) and the table by mnemonic (R95) hold the same entries (R93). -/
def Obligations.LookupIsTheTableByMnemonic : Prop :=
  ∀ (b : Byte) (m : Mode) (op : Operation), lookup b = some (m, op) ↔ (m, b) ∈ op.opcodes

/-- The opcode byte alone selects the (mode, operation) pair, and the mode alone the number of operand bytes: an
instruction is 1, 2 or 3 bytes long and the decoder takes exactly those bytes (R90). -/
def Obligations.OpcodeByteAloneGivesModeAndLength : Prop :=
  ∀ (b : Byte) (rest : List Byte) (i : Instr) (rest' : List Byte), decode (b :: rest) = .ok (i, rest') →
    lookup b = some (i.mode, i.operation) ∧ operandCount b = i.mode.operandBytes ∧
    (1 ≤ i.length ∧ i.length ≤ 3) ∧ (b :: rest).length = i.length + rest'.length

/-- 151 legal opcodes and 105 illegal bytes (R96, R99), and of the legal ones as many in each mode as R91's last column
says. -/
def Obligations.OpcodeCountsByMode : Prop :=
  let modes := ((List.range 256).filterMap fun n => lookup (BitVec.ofNat 8 n)).map Prod.fst
  modes.length = 151 ∧ illegalBytes.length = 105 ∧
  (modes.count .imp = 25 ∧ modes.count .acc = 4 ∧ modes.count .imm = 11 ∧ modes.count .zp = 21 ∧
   modes.count .zpx = 16 ∧ modes.count .zpy = 2 ∧ modes.count .abs = 23 ∧ modes.count .absx = 15 ∧
   modes.count .absy = 9 ∧ modes.count .ind = 1 ∧ modes.count .indx = 8 ∧ modes.count .indy = 8 ∧
   modes.count .rel = 8)

/-- Which instructions carry an address operand: every load, store, logical, arithmetic and compare instruction, every
INC and DEC, every branch, JMP and JSR in every form; the shifts and rotates carry one or are the Accumulator form; the
rest are Implied (R95, R98). So the statements about operations with an address operand shut out no form. -/
def Obligations.EveryFormHasItsOperandKind : Prop :=
  ∀ i : Instr,
    ((i.operation.isRead || i.operation.isStore || i.operation.isBranch ||
        [Operation.inc, .dec, .jmp, .jsr].contains i.operation) = true ∧ ∃ m, i.operand = .addr m) ∨
    ([Operation.asl, .lsr, .rol, .ror].contains i.operation = true ∧
      (i.operand = .acc ∨ ∃ m, i.operand = .addr m)) ∨
    ((i.operation.isRead || i.operation.isStore || i.operation.isBranch || i.operation.isModify ||
        [Operation.jmp, .jsr].contains i.operation) = false ∧ i.operand = .imp)

/-! ### The step -/

/-- When the bytes at PC decode to an instruction, which is well formed, the step is `exec` of it at the state whose PC
is past its bytes and whose bus shows the reads of them (40_dispatch_addressing.md R121, R125, R140). -/
def Obligations.StepRunsDecodedInstruction : Prop :=
  ∀ (s : State) (i : Instr) (rest : List Byte), decode s.codeBytes = .ok (i, rest) →
    i.wellFormed = true ∧ step s = exec i (s.afterFetch i.length)

/-- The bytes the decoder refuses are the 105 of R96, and with one of them at PC the step reports it with the address it
was fetched from, advances PC by 1, reads nothing else and changes nothing else; execution goes on (60_exceptions.md
R330; which address the report carries is the spec's decision D16). -/
def Obligations.IllegalOpcodeIsReportedAndSkipped : Prop :=
  (∀ b : Byte, lookup b = none ↔ b ∈ illegalBytes) ∧
  ∀ s : State, s.byteAt s.pc ∈ illegalBytes →
    step s = .next { s with pc := s.pc + 1, lastResult := .illegalOpcode (s.byteAt s.pc) s.pc,
                            bus := [s.readAt s.pc] }

/-- Every step completes, and it returns Ok or IllegalOpcode: Ok exactly when the opcode is recognised (R122). Every
instruction completes from every state. That the result is a field of State and an illegal opcode a next state is the
model's choice (log entry 3). -/
def Obligations.EveryStepCompletesWithOneOfTwoResults : Prop :=
  (∀ s : State, ∃ t, step s = .next t ∧
    ((lookup (s.byteAt s.pc) ≠ none ∧ t.lastResult = .ok) ∨
     (lookup (s.byteAt s.pc) = none ∧ ∃ byte addr, t.lastResult = .illegalOpcode byte addr))) ∧
  ∀ (i : Instr) (s : State), ∃ t, exec i s = .next t ∧ t.lastResult = s.lastResult

/-- Every step keeps the invariant: memory in canonical form, an honest report, at most six bus transactions. -/
def Obligations.StepKeepsInvariant : Prop :=
  ∀ s t : State, s.Inv → step s = .next t → t.Inv

/-- The invariant holds after reset, after power-on beside any canonical memory, and after `reset()` from there. -/
def Obligations.InvariantHoldsAtReset : Prop :=
  State.reset.Inv ∧ ∀ mem : Memory, mem.wf = true → (State.powerOn mem).Inv ∧ (State.boot mem).Inv

/-- The core has no other path to memory than the two bus calls (20_memory.md R60): replaying a step's transactions on
the memory before it, every read returns what the memory holds at that point and the writes leave the memory after. So it
is with this hardware's memory, the ideal RAM (the spec's decision D2, log entry 2), and with every collaborator and either
setting of the other parameters (R61: no policy is assumed but that a byte is always returned and accepted), under which
every step completes too; and this hardware's step is the parametric one at its parameters. -/
def Obligations.MemoryIsReachedOnlyThroughTheBus : Prop :=
  (∀ s t : State, step s = .next t → replay s.mem t.bus = some t.mem) ∧
  (∀ (q : Params) (s : State), ∃ t, stepIn q s = .next t ∧ replay s.mem t.bus q.mem = some t.mem) ∧
  ∀ s : State, step s = stepIn params s

/-- The transactions of a step in the order of R78 (the spec's decision D3): the opcode fetch, the operand bytes in
address order, the pointer bytes low then high, then the operation's own accesses. -/
def Obligations.StepMakesItsTransactionsInOrder : Prop :=
  ∀ (s t : State) (i : Instr) (rest : List Byte), decode s.codeBytes = .ok (i, rest) → step s = .next t →
    t.bus = s.codeReads i.length ++ opAccesses i (s.afterFetch i.length)

/-- The model's own two fields steer nothing: a step from a state that differs only in them is the same step (10_state.md
R37; log entries 3 and 4). -/
def Obligations.ReportAndBusSteerNothing : Prop :=
  ∀ (s : State) (r : StepResult) (l : List BusAccess), step { s with lastResult := r, bus := l } = step s

/-- After a step of an instruction that loads no target into PC, PC is the instruction's address plus its length, mod
65536 (R140). -/
def Obligations.SequentialInstructionsAdvancePC : Prop :=
  ∀ (s t : State) (i : Instr) (rest : List Byte), decode s.codeBytes = .ok (i, rest) →
    i.operation.setsPC = false → step s = .next t → t.pc.toNat = (s.pc.toNat + i.length) % 65536

/-! ### Who writes what -/

/-- Only the instructions 10_state.md R39 lists change each register. -/
def Obligations.OnlyListedInstructionsWriteEachRegister : Prop :=
  ∀ (i : Instr) (s t : State), exec i s = .next t →
    (t.a ≠ s.a → i.operation ∈ [Operation.lda, .and, .ora, .eor, .adc, .sbc, .txa, .tya, .pla] ∨
      (i.operation ∈ [Operation.asl, .lsr, .rol, .ror] ∧ i.operand = .acc)) ∧
    (t.x ≠ s.x → i.operation ∈ [Operation.ldx, .inx, .dex, .tax, .tsx]) ∧
    (t.y ≠ s.y → i.operation ∈ [Operation.ldy, .iny, .dey, .tay]) ∧
    (t.sp ≠ s.sp → i.operation ∈ [Operation.txs, .pha, .php, .pla, .plp, .jsr, .rts, .brk, .rti]) ∧
    (t.pc ≠ s.pc → i.operation.setsPC = true)

/-- Only the instructions 10_state.md R25 lists change each flag. -/
def Obligations.OnlyListedInstructionsWriteEachFlag : Prop :=
  ∀ (i : Instr) (s t : State), exec i s = .next t →
    (t.p.c ≠ s.p.c → i.operation ∈ [Operation.adc, .sbc, .cmp, .cpx, .cpy, .asl, .lsr, .rol, .ror, .clc, .sec,
      .plp, .rti]) ∧
    ((t.p.z ≠ s.p.z ∨ t.p.n ≠ s.p.n) → i.operation ∈ [Operation.lda, .ldx, .ldy, .and, .ora, .eor, .bit, .adc, .sbc,
      .cmp, .cpx, .cpy, .inc, .dec, .inx, .iny, .dex, .dey, .asl, .lsr, .rol, .ror, .tax, .tay, .txa, .tya, .tsx,
      .pla, .plp, .rti]) ∧
    (t.p.i ≠ s.p.i → i.operation ∈ [Operation.cli, .sei, .brk, .plp, .rti]) ∧
    (t.p.d ≠ s.p.d → i.operation ∈ [Operation.cld, .sed, .plp, .rti]) ∧
    ((t.p.b ≠ s.p.b ∨ t.p.u ≠ s.p.u) → i.operation ∈ [Operation.php, .brk, .plp, .rti]) ∧
    (t.p.v ≠ s.p.v → i.operation ∈ [Operation.adc, .sbc, .bit, .clv, .plp, .rti])

/-- I, D, B and U steer nothing: but for the instructions that write or push them, an instruction run with the flag set
otherwise does the same and leaves the flag as it was set (R29-R32; 60_exceptions.md R334; 41_alu.md R161). -/
def Obligations.InertFlagsSteerNothing : Prop :=
  ∀ (i : Instr) (s : State) (q : Bool),
    (i.operation ∉ [Operation.cli, .sei, .php, .brk, .plp, .rti] →
      exec i { s with p := { s.p with i := q } } = mapNext (fun t => { t with p := { t.p with i := q } }) (exec i s)) ∧
    (i.operation ∉ [Operation.cld, .sed, .php, .brk, .plp, .rti] →
      exec i { s with p := { s.p with d := q } } = mapNext (fun t => { t with p := { t.p with d := q } }) (exec i s)) ∧
    (i.operation ∉ [Operation.php, .brk, .plp, .rti] →
      exec i { s with p := { s.p with b := q } } = mapNext (fun t => { t with p := { t.p with b := q } }) (exec i s) ∧
      exec i { s with p := { s.p with u := q } } = mapNext (fun t => { t with p := { t.p with u := q } }) (exec i s))

/-- An instruction that is no store, no push and no read-modify-write of memory leaves every byte of memory as it was
(20_memory.md R78). -/
def Obligations.OtherInstructionsLeaveMemory : Prop :=
  ∀ (i : Instr) (s t : State), i.writesMemory = false → exec i s = .next t →
    t.mem = s.mem ∧ ∀ addr : Word, t.byteAt addr = s.byteAt addr

/-- A store writes its register, and a read-modify-write instruction its result, to the effective address, and every
other byte of memory is as before (R78; 40_dispatch_addressing.md R141). -/
def Obligations.StoresTouchOnlyTheirAddress : Prop :=
  ∀ (i : Instr) (m : AddrMode) (s t : State), i.operand = .addr m → s.mem.wf = true → exec i s = .next t →
    ∀ addr : Word, m.ea s = addr →
      (i.operation.isStore = true → t.byteAt addr = s.storedBy i.operation) ∧
      (i.operation.isModify = true → t.byteAt addr = modified i.operation (s.byteAt addr) s.p.c) ∧
      ((i.operation.isStore || i.operation.isModify) = true →
        ∀ b : Word, b ≠ addr → t.byteAt b = s.byteAt b)

/-- A pushing instruction changes no byte of memory but its stack slots, which lie in page 1 (20_memory.md R68, R72,
R74). -/
def Obligations.PushesTouchOnlyTheirStackSlots : Prop :=
  ∀ (i : Instr) (s t : State), i.operation.isPush = true → exec i s = .next t →
    (∀ addr ∈ pushSlots i.operation s.sp, 0x0100 ≤ addr.toNat ∧ addr.toNat ≤ 0x01FF) ∧
    ∀ b : Word, b ∉ pushSlots i.operation s.sp → t.byteAt b = s.byteAt b

/-- Two canonical memories that read alike everywhere are the same list (20_memory.md R61, R62; the form is the model's
own, log entry 1). -/
def Obligations.CanonicalMemoriesThatReadAlikeAreEqual : Prop :=
  ∀ m m' : Memory, m.wf = true → m'.wf = true → (∀ addr : Word, m.read addr.toNat = m'.read addr.toNat) → m = m'

/-! ### The status byte and the ALU -/

/-- The packed byte holds each flag at its position, and the two conversions are inverse (10_state.md R26). -/
def Obligations.PackedStatusByteHoldsEachFlag : Prop :=
  (∀ f : Flags, (f.toByte).toNat = 128 * f.n.toNat + 64 * f.v.toNat + 32 * f.u.toNat + 16 * f.b.toNat +
      8 * f.d.toNat + 4 * f.i.toNat + 2 * f.z.toNat + f.c.toNat) ∧
  (∀ f : Flags, Flags.ofByte f.toByte = f) ∧
  ∀ v : Byte, (Flags.ofByte v).toByte = v ∧
    ((Flags.ofByte v).c = v.getLsbD 0 ∧ (Flags.ofByte v).z = v.getLsbD 1 ∧ (Flags.ofByte v).i = v.getLsbD 2 ∧
     (Flags.ofByte v).d = v.getLsbD 3 ∧ (Flags.ofByte v).b = v.getLsbD 4 ∧ (Flags.ofByte v).u = v.getLsbD 5 ∧
     (Flags.ofByte v).v = v.getLsbD 6 ∧ (Flags.ofByte v).n = v.getLsbD 7)

/-- AddC: the sum mod 256, the carry, and the overflow of R151, which is set exactly when the signed sum is out of
range. -/
def Obligations.AddCIsTheSumWithCarryAndOverflow : Prop :=
  ∀ (a b : Byte) (cin : Bool),
    let s : Nat := a.toNat + b.toNat + cin.toNat
    let q := addC a b cin
    q.r.toNat = s % 256 ∧ (q.c = true ↔ s > 0xFF) ∧
    (q.v = true ↔ a.msb = b.msb ∧ a.msb ≠ q.r.msb) ∧
    (q.v = true ↔ a.toInt + b.toInt + cin.toNat < -128 ∨ 127 < a.toInt + b.toInt + cin.toNat)

/-- SubB: the difference mod 256, no borrow as the carry, and the overflow of 41_alu.md R152 (the spec's decision D8),
which is set exactly when the signed difference is out of range; it is AddC of the complement. -/
def Obligations.SubBIsTheDifferenceWithBorrowAndOverflow : Prop :=
  ∀ (a b : Byte) (cin : Bool),
    let d : Int := (a.toNat : Int) - b.toNat - (1 - (cin.toNat : Int))
    let q := subB a b cin
    (q.r.toNat : Int) = d % 256 ∧ (q.c = true ↔ 0 ≤ d) ∧
    (q.v = true ↔ a.msb ≠ b.msb ∧ a.msb ≠ q.r.msb) ∧
    (q.v = true ↔ a.toInt - b.toInt - (1 - (cin.toNat : Int)) < -128 ∨
      127 < a.toInt - b.toInt - (1 - (cin.toNat : Int))) ∧
    q = addC a (~~~b) cin

/-- ADC with a carry-in, then SBC of the same operand with the other carry-in, restores A (90_conflicts.md C4;
95_test_vectors.md L1-4), for every pair of forms that read the same operand byte. -/
def Obligations.AdcThenSbcWithOtherCarryRestoresA : Prop :=
  ∀ (i j : Instr) (m k : AddrMode) (s t : State) (q : Bool), i.operation = .adc → i.operand = .addr m →
    j.operation = .sbc → j.operand = .addr k → s.p.c = q → exec i s = .next t →
    k.value { t with p := { t.p with c := !q } } = m.value s →
    ∃ u, exec j { t with p := { t.p with c := !q } } = .next u ∧ u.a = s.a

/-! ### Addressing modes -/

/-- The effective address each mode gives the instruction at PC, from the bytes in memory (40_dispatch_addressing.md
R130-R135, R137-R139; Immediate, which R129 gives, is included). Zero Page,Y goes with LDX and STX only and Relative with
the branches only. -/
def Obligations.EffectiveAddressOfEachMode : Prop :=
  ∀ (s : State) (i : Instr) (rest : List Byte) (m : AddrMode), decode s.codeBytes = .ok (i, rest) →
    i.operand = .addr m →
    (∀ n, s.tableAddress i.mode = some n → (m.ea (s.afterFetch i.length)).toNat = n) ∧
    (i.mode = .zpy → i.operation = .ldx ∨ i.operation = .stx) ∧
    (i.mode = .rel → i.operation.isBranch = true)

/-- The value of an operand is the byte at its effective address, and an immediate operand is the byte after the opcode
(R129, R141; that the model takes it from the fetched bytes is log entry 10). -/
def Obligations.OperandValueIsTheByteAtItsAddress : Prop :=
  ∀ (s : State) (i : Instr) (rest : List Byte) (m : AddrMode), decode s.codeBytes = .ok (i, rest) →
    i.operand = .addr m →
    m.value (s.afterFetch i.length) = s.byteAt (m.ea (s.afterFetch i.length)) ∧
    (i.mode = .imm → m.ea (s.afterFetch i.length) = s.pc + 1)

/-- JMP (ind) reads its target at the pointer and at the pointer plus 1 mod 65536 as this hardware takes it (R136, the
spec's decision D5, log entry 6). With the parameter set otherwise the high byte comes from the start of the same page
when the pointer ends in 0xFF, and the two agree on every other pointer. -/
def Obligations.IndirectPointerUnderBothSettings : Prop :=
  ∀ (ptr : Word) (s : State),
    (AddrMode.ind ptr).ea s = (s.resolveInd false ptr).1 ∧
    ((s.resolveInd false ptr).1.toNat =
      (s.mem.read ptr.toNat).toNat + 256 * (s.mem.read ((ptr.toNat + 1) % 65536)).toNat) ∧
    ((s.resolveInd true ptr).1.toNat =
      (s.mem.read ptr.toNat).toNat + 256 * (s.mem.read (ptr.toNat / 256 * 256 + (ptr.toNat + 1) % 256)).toNat) ∧
    (ptr.toNat % 256 ≠ 0xFF → s.resolveInd true ptr = s.resolveInd false ptr)

/-! ### Load and store -/

/-- LDA, LDX and LDY load their operand and set N and Z from it; nothing else changes (42_load_store.md R180-R182;
41_alu.md R150). -/
def Obligations.LoadsSetTheirRegisterAndNZ : Prop :=
  ∀ (i : Instr) (m : AddrMode) (s : State), i.operand = .addr m →
    let v := m.value s
    let f : Flags := { s.p with n := v.getLsbD 7, z := decide (v.toNat = 0) }
    let b := s.bus ++ m.operandReads s
    (i.operation = .lda → exec i s = .next { s with a := v, p := f, bus := b }) ∧
    (i.operation = .ldx → exec i s = .next { s with x := v, p := f, bus := b }) ∧
    (i.operation = .ldy → exec i s = .next { s with y := v, p := f, bus := b })

/-- STA, STX and STY write their register to the effective address, read nothing there and change no flag and no
register (R183-R185). -/
def Obligations.StoresWriteTheirRegister : Prop :=
  ∀ (i : Instr) (m : AddrMode) (s : State), i.operand = .addr m →
    let stored (v : Byte) : State :=
      { s with mem := s.mem.write (m.ea s).toNat v, bus := s.bus ++ m.pointerReads s ++ [.write (m.ea s) v] }
    (i.operation = .sta → exec i s = .next (stored s.a)) ∧
    (i.operation = .stx → exec i s = .next (stored s.x)) ∧
    (i.operation = .sty → exec i s = .next (stored s.y))

/-! ### Logical, arithmetic, compare -/

/-- AND, ORA and EOR: bit k of A becomes the function of the bits k of A and of the operand; N and Z from the result;
no other register, flag or byte of memory changes (41_alu.md R154, R150). -/
def Obligations.LogicalInstructionsCombineBits : Prop :=
  ∀ (i : Instr) (m : AddrMode) (s : State), i.operand = .addr m →
    let result (r : Byte) (b : List BusAccess) : State :=
      { s with a := r, p := { s.p with n := r.getLsbD 7, z := decide (r.toNat = 0) }, bus := b }
    (i.operation = .and → ∃ (r : Byte) (b : List BusAccess),
      (∀ k < 8, r.getLsbD k = (s.a.getLsbD k && (m.value s).getLsbD k)) ∧ exec i s = .next (result r b)) ∧
    (i.operation = .ora → ∃ (r : Byte) (b : List BusAccess),
      (∀ k < 8, r.getLsbD k = (s.a.getLsbD k || (m.value s).getLsbD k)) ∧ exec i s = .next (result r b)) ∧
    (i.operation = .eor → ∃ (r : Byte) (b : List BusAccess),
      (∀ k < 8, r.getLsbD k = (s.a.getLsbD k != (m.value s).getLsbD k)) ∧ exec i s = .next (result r b))

/-- BIT: Z from A & m, N and V from bits 7 and 6 of m; A, C and all else unchanged (41_alu.md R155). -/
def Obligations.BitTestsMemoryAgainstA : Prop :=
  ∀ (i : Instr) (m : AddrMode) (s : State), i.operation = .bit → i.operand = .addr m →
    ∃ b : List BusAccess, exec i s = .next { s with
      p := { s.p with z := decide ((s.a &&& m.value s) = 0), n := (m.value s).getLsbD 7, v := (m.value s).getLsbD 6 }
      bus := b }

/-- ADC: A becomes A + m + C mod 256 in binary whatever D holds, C the carry, V the signed overflow, N and Z from the
result; nothing else changes (41_alu.md R151, R150). -/
def Obligations.AdcAddsWithCarry : Prop :=
  ∀ (i : Instr) (m : AddrMode) (s : State), i.operation = .adc → i.operand = .addr m →
    let sum : Nat := s.a.toNat + (m.value s).toNat + s.p.c.toNat
    ∃ (r : Byte) (b : List BusAccess), r.toNat = sum % 256 ∧
      exec i s = .next { s with
        a := r
        p := { s.p with
          c := decide (sum > 0xFF)
          v := decide (s.a.getLsbD 7 = (m.value s).getLsbD 7 ∧ s.a.getLsbD 7 ≠ r.getLsbD 7)
          n := r.getLsbD 7
          z := decide (r.toNat = 0) }
        bus := b }

/-- SBC: A becomes A - m - (1 - C) mod 256 in binary whatever D holds, C is no borrow, V the overflow of 41_alu.md R152
(the spec's decision D8), N and Z from the result; nothing else changes (43_logical_arith_compare.md R205). -/
def Obligations.SbcSubtractsWithBorrow : Prop :=
  ∀ (i : Instr) (m : AddrMode) (s : State), i.operation = .sbc → i.operand = .addr m →
    let d : Int := (s.a.toNat : Int) - (m.value s).toNat - (1 - (s.p.c.toNat : Int))
    ∃ r : Byte, (r.toNat : Int) = d % 256 ∧
      exec i s = .next { s with
        a := r
        p := { s.p with
          c := decide (0 ≤ d)
          v := decide (s.a.getLsbD 7 ≠ (m.value s).getLsbD 7 ∧ s.a.getLsbD 7 ≠ r.getLsbD 7)
          n := r.getLsbD 7
          z := decide (r.toNat = 0) }
        bus := s.bus ++ m.operandReads s }

/-- CMP, CPX and CPY: C is register ≥ m unsigned, Z is equality, N is bit 7 of the difference; V, the register and all
else unchanged, and no carry-in is used (41_alu.md R153). -/
def Obligations.ComparesSetCarryZeroNegative : Prop :=
  ∀ (i : Instr) (m : AddrMode) (s : State), i.operand = .addr m →
    let compared (reg : Byte) (b : List BusAccess) : State :=
      { s with
        p := { s.p with
          c := decide ((m.value s).toNat ≤ reg.toNat)
          z := decide (reg = m.value s)
          n := (reg - m.value s).getLsbD 7 }
        bus := b }
    (i.operation = .cmp → ∃ b, exec i s = .next (compared s.a b)) ∧
    (i.operation = .cpx → ∃ b, exec i s = .next (compared s.x b)) ∧
    (i.operation = .cpy → ∃ b, exec i s = .next (compared s.y b))

/-! ### Increment, decrement, shift, rotate -/

/-- INC and DEC: the byte at the effective address plus or minus 1 mod 256 is written back; N and Z from it; C, V and all
else unchanged (41_alu.md R160). -/
def Obligations.IncAndDecStepMemory : Prop :=
  ∀ (i : Instr) (m : AddrMode) (s : State), i.operand = .addr m →
    let old := (s.byteAt (m.ea s)).toNat
    let stepped (r : Byte) (b : List BusAccess) : State :=
      { s with
        mem := s.mem.write (m.ea s).toNat r
        p := { s.p with n := r.getLsbD 7, z := decide (r.toNat = 0) }
        bus := b }
    (i.operation = .inc → ∃ (r : Byte) (b : List BusAccess),
      r.toNat = (old + 1) % 256 ∧ exec i s = .next (stepped r b)) ∧
    (i.operation = .dec → ∃ (r : Byte) (b : List BusAccess),
      r.toNat = (old + 255) % 256 ∧ exec i s = .next (stepped r b))

/-- INX, INY, DEX and DEY: the register plus or minus 1 mod 256; N and Z from it; nothing else changes (41_alu.md R160). -/
def Obligations.RegisterIncrementsAndDecrements : Prop :=
  ∀ (s : State) (r : Byte),
    let f : Flags := { s.p with n := r.getLsbD 7, z := decide (r.toNat = 0) }
    (r.toNat = (s.x.toNat + 1) % 256 → exec .inx s = .next { s with x := r, p := f }) ∧
    (r.toNat = (s.y.toNat + 1) % 256 → exec .iny s = .next { s with y := r, p := f }) ∧
    (r.toNat = (s.x.toNat + 255) % 256 → exec .dex s = .next { s with x := r, p := f }) ∧
    (r.toNat = (s.y.toNat + 255) % 256 → exec .dey s = .next { s with y := r, p := f })

/-- The Accumulator forms: ASL and ROL shift left with 0 or the old carry entering at bit 0 and bit 7 leaving into C,
LSR and ROR shift right with 0 or the old carry entering at bit 7 and bit 0 leaving into C; N and Z from the result;
nothing else changes (41_alu.md R156-R159). -/
def Obligations.AccumulatorShiftsAndRotates : Prop :=
  ∀ (s : State) (r : Byte),
    let shifted (c : Bool) : State :=
      { s with a := r, p := { s.p with c := c, n := r.getLsbD 7, z := decide (r.toNat = 0) } }
    (r.toNat = 2 * s.a.toNat % 256 → exec .aslAcc s = .next (shifted (s.a.getLsbD 7))) ∧
    (r.toNat = s.a.toNat / 2 → exec .lsrAcc s = .next (shifted (s.a.getLsbD 0))) ∧
    (r.toNat = 2 * s.a.toNat % 256 + s.p.c.toNat → exec .rolAcc s = .next (shifted (s.a.getLsbD 7))) ∧
    (r.toNat = s.a.toNat / 2 + 128 * s.p.c.toNat → exec .rorAcc s = .next (shifted (s.a.getLsbD 0)))

/-- The memory forms of the shifts and rotates do to the byte at the effective address what the Accumulator forms do to
A: the result is written back, C, N and Z; nothing else changes (41_alu.md R156-R159). -/
def Obligations.MemoryShiftsAndRotates : Prop :=
  ∀ (i : Instr) (m : AddrMode) (s : State) (r : Byte), i.operand = .addr m →
    let old := s.byteAt (m.ea s)
    let shifted (c : Bool) (b : List BusAccess) : State :=
      { s with
        mem := s.mem.write (m.ea s).toNat r
        p := { s.p with c := c, n := r.getLsbD 7, z := decide (r.toNat = 0) }
        bus := b }
    (i.operation = .asl → r.toNat = 2 * old.toNat % 256 → ∃ b, exec i s = .next (shifted (old.getLsbD 7) b)) ∧
    (i.operation = .lsr → r.toNat = old.toNat / 2 → ∃ b, exec i s = .next (shifted (old.getLsbD 0) b)) ∧
    (i.operation = .rol → r.toNat = 2 * old.toNat % 256 + s.p.c.toNat →
      ∃ b, exec i s = .next (shifted (old.getLsbD 7) b)) ∧
    (i.operation = .ror → r.toNat = old.toNat / 2 + 128 * s.p.c.toNat →
      ∃ b, exec i s = .next (shifted (old.getLsbD 0) b))

/-! ### Branches and flags -/

/-- Each branch loads PC with the PC after its offset byte plus the signed offset, mod 65536, when its condition holds,
and does nothing otherwise; nothing but PC changes (45_branch_flag.md R260-R268; which flag each tests is the spec's
decision D9). -/
def Obligations.BranchesLoadTargetOnCondition : Prop :=
  ∀ (i : Instr) (rel8 : Byte) (s : State), i.operand = .addr (.rel rel8) →
    let target : Word := BitVec.ofInt 16 ((s.pc.toNat : Int) + rel8.toInt)
    let cond : Bool :=
      match i.operation with
      | .bcc => !s.p.c
      | .bcs => s.p.c
      | .beq => s.p.z
      | .bne => !s.p.z
      | .bmi => s.p.n
      | .bpl => !s.p.n
      | .bvc => !s.p.v
      | .bvs => s.p.v
      | _ => false
    exec i s = .next { s with pc := if cond then target else s.pc }

/-- CLC, SEC, CLD, SED, CLI, SEI and CLV set or clear their one flag; nothing else changes (R270-R276; which flag each
writes is the spec's decision D10). -/
def Obligations.FlagInstructionsWriteOneFlag : Prop :=
  ∀ s : State,
    exec .clc s = .next { s with p := { s.p with c := false } } ∧
    exec .sec s = .next { s with p := { s.p with c := true } } ∧
    exec .cld s = .next { s with p := { s.p with d := false } } ∧
    exec .sed s = .next { s with p := { s.p with d := true } } ∧
    exec .cli s = .next { s with p := { s.p with i := false } } ∧
    exec .sei s = .next { s with p := { s.p with i := true } } ∧
    exec .clv s = .next { s with p := { s.p with v := false } }

/-! ### Jumps, calls, returns, system -/

/-- JMP absolute and indirect load PC with the effective address and access nothing there; nothing else changes
(46_jump_system.md R290, R291; the indirect pointer's second address is the spec's decision D5, log entry 6). -/
def Obligations.JumpsLoadPC : Prop :=
  ∀ (w : Word) (s : State),
    exec (.jmpAbs w) s = .next { s with pc := w } ∧
    exec (.jmpInd w) s = .next { s with pc := s.byteAt (w + 1) ++ s.byteAt w,
                                        bus := s.bus ++ [s.readAt w, s.readAt (w + 1)] }

/-- JSR pushes the address of its own last byte, high byte first, and loads PC with the target (R292; the stack
discipline is the spec's decision D6). -/
def Obligations.JsrPushesReturnAddressAndJumps : Prop :=
  ∀ (w : Word) (s : State) (hi lo : Byte), hi ++ lo = s.pc - 1 →
    exec (.jsrAbs w) s = .next { s with
      pc := w
      sp := s.sp - 2
      mem := (s.mem.write (256 + s.sp.toNat) hi).write (256 + (s.sp - 1).toNat) lo
      bus := s.bus ++ [.write (stackAddr s.sp) hi, .write (stackAddr (s.sp - 1)) lo] }

/-- RTS pulls the low byte, then the high byte, and loads PC with the address plus 1 mod 65536 (R293; D6). -/
def Obligations.RtsPullsReturnAddress : Prop :=
  ∀ s : State,
    exec .rts s = .next { s with
      sp := s.sp + 2
      pc := (s.mem.read (256 + (s.sp + 2).toNat) ++ s.mem.read (256 + (s.sp + 1).toNat)) + 1
      bus := s.bus ++ [s.readAt (stackAddr (s.sp + 1)), s.readAt (stackAddr (s.sp + 2))] }

/-- BRK pushes PC + 1, which is its own address plus 2, high byte first, then P with B and U set; sets I, B and U; and
loads PC from the vector at 0xFFFE. A, X and Y are untouched (R294; 60_exceptions.md R336; D6 and, for the live B and U,
D7, log entry 7). -/
def Obligations.BrkEntersTheTrap : Prop :=
  ∀ (s : State) (hi lo img : Byte), hi ++ lo = s.pc + 1 →
    img = ({ s.p with b := true, u := true } : Flags).toByte →
    exec .brk s = .next { s with
      pc := s.byteAt 0xFFFF ++ s.byteAt 0xFFFE
      sp := s.sp - 3
      p := { s.p with b := true, u := true, i := true }
      mem := ((s.mem.write (256 + s.sp.toNat) hi).write (256 + (s.sp - 1).toNat) lo).write
        (256 + (s.sp - 2).toNat) img
      bus := s.bus ++ [.write (stackAddr s.sp) hi, .write (stackAddr (s.sp - 1)) lo,
        .write (stackAddr (s.sp - 2)) img, s.readAt 0xFFFE, s.readAt 0xFFFF] }

/-- RTI pulls all eight flags as stacked, then PC, low byte first, with no adjustment (R295; D6). -/
def Obligations.RtiRestoresStatusAndPC : Prop :=
  ∀ s : State,
    exec .rti s = .next { s with
      sp := s.sp + 3
      p := Flags.ofByte (s.mem.read (256 + (s.sp + 1).toNat))
      pc := s.mem.read (256 + (s.sp + 3).toNat) ++ s.mem.read (256 + (s.sp + 2).toNat)
      bus := s.bus ++ [s.readAt (stackAddr (s.sp + 1)), s.readAt (stackAddr (s.sp + 2)),
        s.readAt (stackAddr (s.sp + 3))] }

/-- NOP has no effect: PC has already advanced past it (R296). -/
def Obligations.NopHasNoEffect : Prop :=
  ∀ s : State, exec .nop s = .next s ∧
    (s.byteAt s.pc = 0xEA → step s = .next { s with pc := s.pc + 1, lastResult := .ok, bus := [s.readAt s.pc] })

/-- RTS after JSR returns to the instruction after the JSR with the stack pointer restored, at every stack pointer, if
the two stacked bytes and SP are as JSR left them (95_test_vectors.md L1-3; R292, R293). -/
def Obligations.RtsAfterJsrReturns : Prop :=
  ∀ (w : Word) (s t r : State), s.mem.wf = true → exec (.jsrAbs w) s = .next t → r.sp = t.sp →
    (∀ addr ∈ pushSlots .jsr s.sp, r.byteAt addr = t.byteAt addr) →
    ∃ u, exec .rts r = .next u ∧ u.pc = s.pc ∧ u.sp = s.sp

/-- RTI after BRK restores P with B and U set, whatever they were, the stack pointer, and PC to the BRK's address plus 2,
if the three stacked bytes and SP are as BRK left them (60_exceptions.md R337; 95_test_vectors.md L1-6). -/
def Obligations.RtiAfterBrkRestores : Prop :=
  ∀ s t r : State, s.mem.wf = true → exec .brk s = .next t → r.sp = t.sp →
    (∀ addr ∈ pushSlots .brk s.sp, r.byteAt addr = t.byteAt addr) →
    ∃ u, exec .rti r = .next u ∧ u.pc = s.pc + 1 ∧ u.sp = s.sp ∧ u.p = { s.p with b := true, u := true } ∧
      u.p.toByte = s.p.toByte ||| 0x30

/-! ### Transfers and the stack -/

/-- TAX, TAY, TXA, TYA and TSX copy a register and set N and Z from it; TXS copies X to SP and sets no flag
(47_transfer_stack.md R310-R315; which registers each copies is the spec's decision D10). -/
def Obligations.TransfersCopyRegisters : Prop :=
  ∀ s : State,
    let f (v : Byte) : Flags := { s.p with n := v.getLsbD 7, z := decide (v.toNat = 0) }
    exec .tax s = .next { s with x := s.a, p := f s.a } ∧
    exec .tay s = .next { s with y := s.a, p := f s.a } ∧
    exec .txa s = .next { s with a := s.x, p := f s.x } ∧
    exec .tya s = .next { s with a := s.y, p := f s.y } ∧
    exec .tsx s = .next { s with x := s.sp, p := f s.sp } ∧
    exec .txs s = .next { s with sp := s.x }

/-- PHA pushes A; PHP pushes P with B and U set and sets them in the live P (R316, R317; 20_memory.md R72 by D6; the live
B and U by D7, log entry 7). With `PUSH_SETS_LIVE_BU` false the live P keeps them. -/
def Obligations.PushInstructionsPush : Prop :=
  ∀ (s : State) (img : Byte), img = ({ s.p with b := true, u := true } : Flags).toByte →
    let pushed (v : Byte) (f : Flags) : State :=
      { s with mem := s.mem.write (256 + s.sp.toNat) v, sp := s.sp - 1, p := f,
               bus := s.bus ++ [.write (stackAddr s.sp) v] }
    exec .pha s = .next (pushed s.a s.p) ∧
    exec .php s = .next (pushed img { s.p with b := true, u := true }) ∧
    s.pushStatus false = pushed img s.p

/-- PLA pulls A and sets N and Z from it; PLP pulls P and clears B and U (R318, R319; 20_memory.md R73 by D6). -/
def Obligations.PullInstructionsPull : Prop :=
  ∀ s : State,
    let v := s.mem.read (256 + (s.sp + 1).toNat)
    let pulled : State := { s with sp := s.sp + 1, bus := s.bus ++ [s.readAt (stackAddr (s.sp + 1))] }
    exec .pla s = .next { pulled with a := v, p := { s.p with n := v.getLsbD 7, z := decide (v.toNat = 0) } } ∧
    exec .plp s = .next { pulled with p := { Flags.ofByte v with b := false, u := false } }

/-- PLA after PHA restores A and the stack pointer at every stack pointer and changes no flag but N and Z
(95_test_vectors.md L1-5; R316, R318). -/
def Obligations.PlaAfterPhaRestoresA : Prop :=
  ∀ s t : State, s.mem.wf = true → exec .pha s = .next t →
    ∃ u, exec .pla t = .next u ∧ u.a = s.a ∧ u.sp = s.sp ∧ u.x = s.x ∧ u.y = s.y ∧
      u.p = { s.p with n := s.a.getLsbD 7, z := decide (s.a.toNat = 0) }

/-! ### Reset, construction, the host -/

/-- `reset()` sets A, X, Y to 0, SP to 0xFF, P to 0x34 and PC to the little-endian word at 0xFFFC, from every state
(10_state.md R41). -/
def Obligations.ResetCallGivesResetValues : Prop :=
  ∀ s : State,
    let t := s.resetCall
    t.a = 0x00 ∧ t.x = 0x00 ∧ t.y = 0x00 ∧ t.sp = 0xFF ∧ t.p.toByte = 0x34 ∧
    t.pc.toNat = (s.mem.read 0xFFFC).toNat + 256 * (s.mem.read 0xFFFD).toNat

/-- Construction gives A = X = Y = 0, SP = 0xFD and P = 0x34 beside the memory given and says nothing of PC (10_state.md
R40). It touches no byte of memory (70_reset_and_hazards.md R360, R362, the spec's decision D13) and leaves the model's own
bus field empty (log entry 4). -/
def Obligations.ConstructionGivesPowerOnValues : Prop :=
  ∀ mem : Memory,
    let t := State.powerOn mem
    t.a = 0x00 ∧ t.x = 0x00 ∧ t.y = 0x00 ∧ t.sp = 0xFD ∧ t.p.toByte = 0x34 ∧ t.mem = mem ∧ t.bus = []

/-- `reset()` leaves memory alone (the spec's decision D13), makes the two vector reads and no other access, and is
idempotent (95_test_vectors.md RS-4). The state after reset is the core constructed beside an empty memory and reset; its
PC is 0x0000 because an address nothing has written reads as 0x00, the model's choice (log entry 1). -/
def Obligations.ResetStateIsTheBootedCore : Prop :=
  (∀ s : State, s.resetCall.mem = s.mem ∧ s.resetCall.bus = [s.readAt 0xFFFC, s.readAt 0xFFFD] ∧
    s.resetCall.resetCall = s.resetCall) ∧
  State.boot [] = State.reset ∧ State.reset.pc = 0x0000 ∧ State.reset.sp = 0xFF ∧ State.reset.p.toByte = 0x34

/-- The host's accessors: `Set` then `Get` of a register or flag gives the value truncated to its width, and nothing that
does not overlap it changes, nor memory, nor the report, nor the bus (R38, the spec's decision D17). -/
def Obligations.HostAccessorsReadAndWriteOneRegister : Prop :=
  ∀ (s : State) (r : HostReg) (v : Nat),
    (s.set r v).get r = v % 2 ^ r.width ∧
    (∀ q : HostReg, r.overlaps q = false → (s.set r v).get q = s.get q) ∧
    (s.set r v).mem = s.mem ∧ (s.set r v).lastResult = s.lastResult ∧ (s.set r v).bus = s.bus
end

