-- ==== Sys2Proof/Laws/State.lean ====
section
/-! SUPPORT. One lemma per field of State per named update, true by `rfl`, so that no proof unfolds a record update. -/

namespace Sys2Proof.Machine

@[simp] theorem params_mem : params.mem = memModel := rfl
@[simp] theorem params_jmpIndPageWrap : params.jmpIndPageWrap = jmpIndPageWrap := rfl
@[simp] theorem params_pushSetsLiveBU : params.pushSetsLiveBU = pushSetsLiveBU := rfl
@[simp] theorem memModel_read (m : Memory) (addr : Word) : memModel.read m addr = (m.read addr.toNat, m) := rfl
@[simp] theorem memModel_write (m : Memory) (addr : Word) (v : Byte) :
    memModel.write m addr v = m.write addr.toNat v := rfl

@[simp] theorem State.writeA_a (s : State) (v : Byte) : (s.writeA v).a = v := rfl
@[simp] theorem State.writeA_x (s : State) (v : Byte) : (s.writeA v).x = s.x := rfl
@[simp] theorem State.writeA_y (s : State) (v : Byte) : (s.writeA v).y = s.y := rfl
@[simp] theorem State.writeA_sp (s : State) (v : Byte) : (s.writeA v).sp = s.sp := rfl
@[simp] theorem State.writeA_pc (s : State) (v : Byte) : (s.writeA v).pc = s.pc := rfl
@[simp] theorem State.writeA_p (s : State) (v : Byte) : (s.writeA v).p = s.p := rfl
@[simp] theorem State.writeA_mem (s : State) (v : Byte) : (s.writeA v).mem = s.mem := rfl
@[simp] theorem State.writeA_lastResult (s : State) (v : Byte) : (s.writeA v).lastResult = s.lastResult := rfl
@[simp] theorem State.writeA_bus (s : State) (v : Byte) : (s.writeA v).bus = s.bus := rfl
@[simp] theorem State.writeA_byteAt (s : State) (v : Byte) (addr : Word) : (s.writeA v).byteAt addr = s.byteAt addr := rfl

@[simp] theorem State.writeX_a (s : State) (v : Byte) : (s.writeX v).a = s.a := rfl
@[simp] theorem State.writeX_x (s : State) (v : Byte) : (s.writeX v).x = v := rfl
@[simp] theorem State.writeX_y (s : State) (v : Byte) : (s.writeX v).y = s.y := rfl
@[simp] theorem State.writeX_sp (s : State) (v : Byte) : (s.writeX v).sp = s.sp := rfl
@[simp] theorem State.writeX_pc (s : State) (v : Byte) : (s.writeX v).pc = s.pc := rfl
@[simp] theorem State.writeX_p (s : State) (v : Byte) : (s.writeX v).p = s.p := rfl
@[simp] theorem State.writeX_mem (s : State) (v : Byte) : (s.writeX v).mem = s.mem := rfl
@[simp] theorem State.writeX_lastResult (s : State) (v : Byte) : (s.writeX v).lastResult = s.lastResult := rfl
@[simp] theorem State.writeX_bus (s : State) (v : Byte) : (s.writeX v).bus = s.bus := rfl
@[simp] theorem State.writeX_byteAt (s : State) (v : Byte) (addr : Word) : (s.writeX v).byteAt addr = s.byteAt addr := rfl

@[simp] theorem State.writeY_a (s : State) (v : Byte) : (s.writeY v).a = s.a := rfl
@[simp] theorem State.writeY_x (s : State) (v : Byte) : (s.writeY v).x = s.x := rfl
@[simp] theorem State.writeY_y (s : State) (v : Byte) : (s.writeY v).y = v := rfl
@[simp] theorem State.writeY_sp (s : State) (v : Byte) : (s.writeY v).sp = s.sp := rfl
@[simp] theorem State.writeY_pc (s : State) (v : Byte) : (s.writeY v).pc = s.pc := rfl
@[simp] theorem State.writeY_p (s : State) (v : Byte) : (s.writeY v).p = s.p := rfl
@[simp] theorem State.writeY_mem (s : State) (v : Byte) : (s.writeY v).mem = s.mem := rfl
@[simp] theorem State.writeY_lastResult (s : State) (v : Byte) : (s.writeY v).lastResult = s.lastResult := rfl
@[simp] theorem State.writeY_bus (s : State) (v : Byte) : (s.writeY v).bus = s.bus := rfl
@[simp] theorem State.writeY_byteAt (s : State) (v : Byte) (addr : Word) : (s.writeY v).byteAt addr = s.byteAt addr := rfl

@[simp] theorem State.writeSP_a (s : State) (v : Byte) : (s.writeSP v).a = s.a := rfl
@[simp] theorem State.writeSP_x (s : State) (v : Byte) : (s.writeSP v).x = s.x := rfl
@[simp] theorem State.writeSP_y (s : State) (v : Byte) : (s.writeSP v).y = s.y := rfl
@[simp] theorem State.writeSP_sp (s : State) (v : Byte) : (s.writeSP v).sp = v := rfl
@[simp] theorem State.writeSP_pc (s : State) (v : Byte) : (s.writeSP v).pc = s.pc := rfl
@[simp] theorem State.writeSP_p (s : State) (v : Byte) : (s.writeSP v).p = s.p := rfl
@[simp] theorem State.writeSP_mem (s : State) (v : Byte) : (s.writeSP v).mem = s.mem := rfl
@[simp] theorem State.writeSP_lastResult (s : State) (v : Byte) : (s.writeSP v).lastResult = s.lastResult := rfl
@[simp] theorem State.writeSP_bus (s : State) (v : Byte) : (s.writeSP v).bus = s.bus := rfl
@[simp] theorem State.writeSP_byteAt (s : State) (v : Byte) (addr : Word) : (s.writeSP v).byteAt addr = s.byteAt addr := rfl

@[simp] theorem State.writePC_a (s : State) (v : Word) : (s.writePC v).a = s.a := rfl
@[simp] theorem State.writePC_x (s : State) (v : Word) : (s.writePC v).x = s.x := rfl
@[simp] theorem State.writePC_y (s : State) (v : Word) : (s.writePC v).y = s.y := rfl
@[simp] theorem State.writePC_sp (s : State) (v : Word) : (s.writePC v).sp = s.sp := rfl
@[simp] theorem State.writePC_pc (s : State) (v : Word) : (s.writePC v).pc = v := rfl
@[simp] theorem State.writePC_p (s : State) (v : Word) : (s.writePC v).p = s.p := rfl
@[simp] theorem State.writePC_mem (s : State) (v : Word) : (s.writePC v).mem = s.mem := rfl
@[simp] theorem State.writePC_lastResult (s : State) (v : Word) : (s.writePC v).lastResult = s.lastResult := rfl
@[simp] theorem State.writePC_bus (s : State) (v : Word) : (s.writePC v).bus = s.bus := rfl
@[simp] theorem State.writePC_byteAt (s : State) (v : Word) (addr : Word) : (s.writePC v).byteAt addr = s.byteAt addr := rfl

@[simp] theorem State.writeP_a (s : State) (f : Flags) : (s.writeP f).a = s.a := rfl
@[simp] theorem State.writeP_x (s : State) (f : Flags) : (s.writeP f).x = s.x := rfl
@[simp] theorem State.writeP_y (s : State) (f : Flags) : (s.writeP f).y = s.y := rfl
@[simp] theorem State.writeP_sp (s : State) (f : Flags) : (s.writeP f).sp = s.sp := rfl
@[simp] theorem State.writeP_pc (s : State) (f : Flags) : (s.writeP f).pc = s.pc := rfl
@[simp] theorem State.writeP_p (s : State) (f : Flags) : (s.writeP f).p = f := rfl
@[simp] theorem State.writeP_mem (s : State) (f : Flags) : (s.writeP f).mem = s.mem := rfl
@[simp] theorem State.writeP_lastResult (s : State) (f : Flags) : (s.writeP f).lastResult = s.lastResult := rfl
@[simp] theorem State.writeP_bus (s : State) (f : Flags) : (s.writeP f).bus = s.bus := rfl
@[simp] theorem State.writeP_byteAt (s : State) (f : Flags) (addr : Word) : (s.writeP f).byteAt addr = s.byteAt addr := rfl

@[simp] theorem State.setNZ_a (s : State) (r : Byte) : (s.setNZ r).a = s.a := rfl
@[simp] theorem State.setNZ_x (s : State) (r : Byte) : (s.setNZ r).x = s.x := rfl
@[simp] theorem State.setNZ_y (s : State) (r : Byte) : (s.setNZ r).y = s.y := rfl
@[simp] theorem State.setNZ_sp (s : State) (r : Byte) : (s.setNZ r).sp = s.sp := rfl
@[simp] theorem State.setNZ_pc (s : State) (r : Byte) : (s.setNZ r).pc = s.pc := rfl
@[simp] theorem State.setNZ_p (s : State) (r : Byte) : (s.setNZ r).p = s.p.setNZ r := rfl
@[simp] theorem State.setNZ_mem (s : State) (r : Byte) : (s.setNZ r).mem = s.mem := rfl
@[simp] theorem State.setNZ_lastResult (s : State) (r : Byte) : (s.setNZ r).lastResult = s.lastResult := rfl
@[simp] theorem State.setNZ_bus (s : State) (r : Byte) : (s.setNZ r).bus = s.bus := rfl
@[simp] theorem State.setNZ_byteAt (s : State) (r : Byte) (addr : Word) : (s.setNZ r).byteAt addr = s.byteAt addr := rfl

@[simp] theorem State.setCNZ_a (s : State) (c : Bool) (r : Byte) : (s.setCNZ c r).a = s.a := rfl
@[simp] theorem State.setCNZ_x (s : State) (c : Bool) (r : Byte) : (s.setCNZ c r).x = s.x := rfl
@[simp] theorem State.setCNZ_y (s : State) (c : Bool) (r : Byte) : (s.setCNZ c r).y = s.y := rfl
@[simp] theorem State.setCNZ_sp (s : State) (c : Bool) (r : Byte) : (s.setCNZ c r).sp = s.sp := rfl
@[simp] theorem State.setCNZ_pc (s : State) (c : Bool) (r : Byte) : (s.setCNZ c r).pc = s.pc := rfl
@[simp] theorem State.setCNZ_p (s : State) (c : Bool) (r : Byte) : (s.setCNZ c r).p = s.p.setCNZ c r := rfl
@[simp] theorem State.setCNZ_mem (s : State) (c : Bool) (r : Byte) : (s.setCNZ c r).mem = s.mem := rfl
@[simp] theorem State.setCNZ_lastResult (s : State) (c : Bool) (r : Byte) : (s.setCNZ c r).lastResult = s.lastResult := rfl
@[simp] theorem State.setCNZ_bus (s : State) (c : Bool) (r : Byte) : (s.setCNZ c r).bus = s.bus := rfl
@[simp] theorem State.setCNZ_byteAt (s : State) (c : Bool) (r : Byte) (addr : Word) : (s.setCNZ c r).byteAt addr = s.byteAt addr := rfl

@[simp] theorem State.memRead_fst (s : State) (addr : Word) : (s.memRead addr).1 = s.byteAt addr := rfl
@[simp] theorem State.memRead_a (s : State) (addr : Word) (q : Params) : (s.memRead addr q).2.a = s.a := rfl
@[simp] theorem State.memRead_x (s : State) (addr : Word) (q : Params) : (s.memRead addr q).2.x = s.x := rfl
@[simp] theorem State.memRead_y (s : State) (addr : Word) (q : Params) : (s.memRead addr q).2.y = s.y := rfl
@[simp] theorem State.memRead_sp (s : State) (addr : Word) (q : Params) : (s.memRead addr q).2.sp = s.sp := rfl
@[simp] theorem State.memRead_pc (s : State) (addr : Word) (q : Params) : (s.memRead addr q).2.pc = s.pc := rfl
@[simp] theorem State.memRead_p (s : State) (addr : Word) (q : Params) : (s.memRead addr q).2.p = s.p := rfl
@[simp] theorem State.memRead_mem (s : State) (addr : Word) : (s.memRead addr).2.mem = s.mem := rfl
@[simp] theorem State.memRead_lastResult (s : State) (addr : Word) (q : Params) : (s.memRead addr q).2.lastResult = s.lastResult := rfl
@[simp] theorem State.memRead_bus (s : State) (addr : Word) : (s.memRead addr).2.bus = s.bus ++ [.read addr (s.byteAt addr)] := rfl
@[simp] theorem State.memRead_byteAt (s : State) (addr b : Word) : (s.memRead addr).2.byteAt b = s.byteAt b := rfl

@[simp] theorem State.memWrite_a (s : State) (addr : Word) (v : Byte) (q : Params) : (s.memWrite addr v q).a = s.a := rfl
@[simp] theorem State.memWrite_x (s : State) (addr : Word) (v : Byte) (q : Params) : (s.memWrite addr v q).x = s.x := rfl
@[simp] theorem State.memWrite_y (s : State) (addr : Word) (v : Byte) (q : Params) : (s.memWrite addr v q).y = s.y := rfl
@[simp] theorem State.memWrite_sp (s : State) (addr : Word) (v : Byte) (q : Params) : (s.memWrite addr v q).sp = s.sp := rfl
@[simp] theorem State.memWrite_pc (s : State) (addr : Word) (v : Byte) (q : Params) : (s.memWrite addr v q).pc = s.pc := rfl
@[simp] theorem State.memWrite_p (s : State) (addr : Word) (v : Byte) (q : Params) : (s.memWrite addr v q).p = s.p := rfl
@[simp] theorem State.memWrite_mem (s : State) (addr : Word) (v : Byte) : (s.memWrite addr v).mem = s.mem.write addr.toNat v := rfl
@[simp] theorem State.memWrite_lastResult (s : State) (addr : Word) (v : Byte) (q : Params) : (s.memWrite addr v q).lastResult = s.lastResult := rfl
@[simp] theorem State.memWrite_bus (s : State) (addr : Word) (v : Byte) : (s.memWrite addr v).bus = s.bus ++ [.write addr v] := rfl

end Sys2Proof.Machine
end

