-- ==== Sys2Proof/Laws/AnyParams.lean ====
section
/-! SUPPORT. The machine under any parameters: `exec` and `step` are it at this hardware's, and every operation reaches
memory by the transactions it adds to the bus, whatever the collaborator. -/

namespace Sys2Proof.Machine

/-- This hardware's `exec` is the parametric one at its parameters. -/
theorem exec_eq_execIn (i : Instr) (s : State) : exec i s = execIn params i s := by
  cases i <;> rfl

/-- This hardware's `step` is the parametric one at its parameters. -/
theorem step_eq_stepIn (s : State) : step s = stepIn params s := by
  unfold step stepIn
  cases s.beginStep.fetchInstr <;> simp only [exec_eq_execIn]

/-! ### Memory follows the bus -/

theorem replay_append (m : Memory) (l k : List BusAccess) (mm : MemModel) :
    replay m (l ++ k) mm = (replay m l mm).bind fun m' => replay m' k mm := by
  induction l generalizing m with
  | nil => rfl
  | cons x l ih =>
    cases x with
    | read addr v =>
      simp only [List.cons_append, replay]
      split
      · exact ih _
      · rfl
    | write addr v => exact ih _

/-- From `s` to `t` the bus gains transactions whose replay takes the one memory to the other. -/
def Follows (q : Params) (s t : State) : Prop :=
  ∃ l, t.bus = s.bus ++ l ∧ replay s.mem l q.mem = some t.mem

variable {q : Params} {s t u : State}

/-- An update of registers and flags alone. -/
theorem Follows.same (hb : t.bus = s.bus) (hm : t.mem = s.mem) : Follows q s t :=
  ⟨[], by simp [hb], by simp [replay, hm]⟩

theorem Follows.trans (h : Follows q s t) (k : Follows q t u) : Follows q s u := by
  obtain ⟨l, hb, hr⟩ := h
  obtain ⟨l', hb', hr'⟩ := k
  exact ⟨l ++ l', by rw [hb', hb, List.append_assoc], by rw [replay_append, hr]; exact hr'⟩

theorem follows_memRead (s : State) (addr : Word) : Follows q s (s.memRead addr q).2 :=
  ⟨[.read addr (q.mem.read s.mem addr).1], rfl, by simp [replay, State.memRead]⟩

theorem follows_memWrite (s : State) (addr : Word) (v : Byte) : Follows q s (s.memWrite addr v q) :=
  ⟨[.write addr v], rfl, rfl⟩

theorem follows_memRead16 (s : State) (lo hi : Word) : Follows q s (s.memRead16 lo hi q).2 :=
  (follows_memRead s lo).trans (follows_memRead _ hi)

theorem follows_fetch (s : State) : Follows q s (s.fetch q).2 := (follows_memRead s s.pc).trans (.same rfl rfl)

theorem follows_fetchMany (n : Nat) (s : State) : Follows q s (State.fetchMany n s q).2 := by
  induction n generalizing s with
  | zero => exact .same rfl rfl
  | succ n ih => exact (follows_fetch s).trans (ih _)

theorem follows_push (s : State) (v : Byte) : Follows q s (s.push v q) :=
  (follows_memWrite s _ v).trans (.same rfl rfl)

theorem follows_pull (s : State) : Follows q s (s.pull q).2 :=
  (Follows.same (t := s.writeSP (s.sp + 1)) rfl rfl).trans (follows_memRead _ _)

theorem follows_push16 (s : State) (w : Word) : Follows q s (s.push16 w q) :=
  (follows_push s _).trans (follows_push _ _)

theorem follows_pull16 (s : State) : Follows q s (s.pull16 q).2 := (follows_pull s).trans (follows_pull _)

theorem follows_pushStatus (live : Bool) (s : State) : Follows q s (s.pushStatus live q) := by
  refine Follows.trans (t := if live then s.writeP (Flags.ofByte s.p.pushImage) else s) ?_ (follows_push _ _)
  cases live <;> exact .same rfl rfl

theorem follows_trapEnter (live : Bool) (ret : Word) (s : State) : Follows q s (s.trapEnter live ret q) :=
  ((((follows_push16 s ret).trans (follows_pushStatus live _)).trans (.same rfl rfl)).trans
    (follows_memRead16 _ _ _)).trans (.same rfl rfl)

theorem follows_trapReturn (s : State) : Follows q s (s.trapReturn q) :=
  (((follows_pull s).trans (.same rfl rfl)).trans (follows_pull16 _)).trans (.same rfl rfl)

theorem follows_resolve (m : AddrMode) (s : State) : Follows q s (m.resolve s q).2 := by
  cases m <;> first
    | exact .same rfl rfl
    | exact follows_memRead16 s _ _

theorem follows_load (m : AddrMode) (s : State) : Follows q s (m.load s q).2 := by
  cases m <;> first
    | exact .same rfl rfl
    | exact (follows_resolve _ s).trans (follows_memRead _ _)

theorem follows_store (m : AddrMode) (v : Byte) (s : State) : Follows q s (m.store v s q) :=
  (follows_resolve m s).trans (follows_memWrite _ _ v)

theorem follows_modify (m : AddrMode) (f : Byte → Byte) (s : State) : Follows q s (m.modify f s q).2 :=
  ((follows_resolve m s).trans (follows_memRead _ _)).trans (follows_memWrite _ _ _)

/-! ### The shared meanings complete, and memory follows the bus -/

/-- A meaning's answer is a next state that memory follows the bus to. -/
def Completes (q : Params) (s : State) (r : Result) : Prop := ∃ t, r = .next t ∧ Follows q s t

theorem completes_same (hb : t.bus = s.bus) (hm : t.mem = s.mem) : Completes q s (.next t) := ⟨t, rfl, .same hb hm⟩

theorem completes_loadInto {w : State → Byte → State} (hb : ∀ s v, (w s v).bus = s.bus)
    (hm : ∀ s v, (w s v).mem = s.mem) (m : AddrMode) (s : State) : Completes q s (loadInto w m s q) :=
  ⟨_, rfl, (follows_load m s).trans (.same (hb _ _) (hm _ _))⟩

theorem completes_logicInto (f : Byte → Byte → Byte) (m : AddrMode) (s : State) : Completes q s (logicInto f m s q) :=
  ⟨_, rfl, (follows_load m s).trans (.same rfl rfl)⟩

theorem completes_arithInto (f : Byte → Byte → Bool → AluResult) (m : AddrMode) (s : State) :
    Completes q s (arithInto f m s q) := ⟨_, rfl, (follows_load m s).trans (.same rfl rfl)⟩

theorem completes_compareWith (reg : State → Byte) (m : AddrMode) (s : State) :
    Completes q s (compareWith reg m s q) := ⟨_, rfl, (follows_load m s).trans (.same rfl rfl)⟩

theorem completes_opBit (m : AddrMode) (s : State) : Completes q s (opBit m s q) :=
  ⟨_, rfl, (follows_load m s).trans (.same rfl rfl)⟩

theorem completes_store (m : AddrMode) (v : Byte) (s : State) : Completes q s (.next (m.store v s q)) :=
  ⟨_, rfl, follows_store m v s⟩

theorem completes_stepMem (f : Byte → Byte) (m : AddrMode) (s : State) : Completes q s (stepMem f m s q) :=
  ⟨_, rfl, (follows_modify m f s).trans (.same rfl rfl)⟩

theorem completes_shiftMem (f : Byte → Bool → Byte × Bool) (m : AddrMode) (s : State) :
    Completes q s (shiftMem f m s q) := 
  ⟨_, rfl, (follows_modify m (fun v => (f v s.p.c).1) s).trans (.same rfl rfl)⟩

theorem completes_branchIf (cond : Flags → Bool) (rel8 : Byte) (s : State) :
    Completes q s (branchIf cond rel8 s) := by
  refine ⟨_, rfl, ?_⟩
  split <;> exact .same rfl rfl

theorem completes_jumpTo (m : AddrMode) (s : State) : Completes q s (jumpTo m s q) :=
  ⟨_, rfl, (follows_resolve m s).trans (.same rfl rfl)⟩

theorem completes_callTo (m : AddrMode) (s : State) : Completes q s (callTo m s q) :=
  ⟨_, rfl, ((follows_resolve m s).trans (follows_push16 _ _)).trans (.same rfl rfl)⟩

theorem completes_opRts (s : State) : Completes q s (opRts s q) := ⟨_, rfl, (follows_pull16 s).trans (.same rfl rfl)⟩

theorem completes_opBrk (s : State) : Completes q s (opBrk s q) := ⟨_, rfl, follows_trapEnter _ _ s⟩

theorem completes_opRti (s : State) : Completes q s (opRti s q) := ⟨_, rfl, follows_trapReturn s⟩

theorem completes_opPha (s : State) : Completes q s (opPha s q) := ⟨_, rfl, follows_push s _⟩

theorem completes_opPhp (s : State) : Completes q s (opPhp s q) := ⟨_, rfl, follows_pushStatus _ s⟩

theorem completes_opPla (s : State) : Completes q s (opPla s q) := ⟨_, rfl, (follows_pull s).trans (.same rfl rfl)⟩

theorem completes_opPlp (s : State) : Completes q s (opPlp s q) := ⟨_, rfl, (follows_pull s).trans (.same rfl rfl)⟩

end Sys2Proof.Machine
end

