-- ==== Sys2Proof/Laws/Encoding.lean ====
section
/-! SUPPORT. What holds of every term of Instr as syntax. -/

namespace Sys2Proof

/-- An operand's number fits its mode's bytes: the fields have those widths. -/
theorem Operand.field_lt (o : Operand) : o.field < 256 ^ o.mode.operandBytes := by
  cases o with
  | imp | acc => decide
  | addr m => cases m <;> exact BitVec.isLt _

/-- The pair of an instruction is in R95. -/
theorem pairLegal_all (i : Instr) : i.spelled.pairLegal = true := by
  cases i <;> rfl

/-- Every term of Instr is well formed. -/
theorem wellFormed_all (i : Instr) : i.wellFormed = true := by
  simp only [Instr.wellFormed, Spelled.wellFormed, pairLegal_all, Bool.true_and, Spelled.fieldFits, decide_eq_true_eq]
  exact i.operand.field_lt

/-- The modes of WellFormed.lean and the opcodes of Decode.lean are the same rows of R95. -/
theorem opcodes_modes (op : Operation) : op.opcodes.map Prod.fst = op.modes := by
  cases op <;> rfl

/-- The operand bytes are as many as the mode says. -/
theorem Operand.bytes_length (o : Operand) : o.bytes.length = o.mode.operandBytes := by
  cases o with
  | imp | acc => rfl
  | addr m => cases m <;> rfl

/-- Splitting a word into bytes and joining them gives the word back (R63). -/
theorem Machine.joinBytes_split (w : Word) : joinBytes (lowByte w) (highByte w) = w := by
  apply BitVec.eq_of_toNat_eq
  have := w.isLt
  simp only [joinBytes, lowByte, highByte, BitVec.toNat_append, BitVec.toNat_setWidth, BitVec.toNat_ushiftRight,
    Nat.shiftRight_eq_div_pow]
  rw [← Nat.shiftLeft_add_eq_or_of_lt (Nat.mod_lt _ (by decide)), Nat.shiftLeft_eq]
  omega

end Sys2Proof
end

