-- ==== Sys2Proof/Laws/Memory.lean ====
section
/-! SUPPORT. The laws of the ideal RAM (spec/20_memory.md R61) and its canonical form. -/

namespace Sys2Proof.Machine

variable {m : Memory} {a b lo : Nat} {v : Byte}

@[simp] theorem Memory.read_nil (a : Nat) : Memory.read [] a = Config.unlistedByte := rfl

theorem Memory.read_cons (k a : Nat) (w : Byte) (rest : Memory) :
    Memory.read ((k, w) :: rest) a = if k = a then w else Memory.read rest a := rfl

theorem Memory.wfFrom_cons (k : Nat) (w : Byte) (rest : Memory) :
    Memory.wfFrom lo ((k, w) :: rest) = true ↔
      lo ≤ k ∧ k < 65536 ∧ w ≠ Config.unlistedByte ∧ Memory.wfFrom (k + 1) rest = true := by
  simp [Memory.wfFrom, and_assoc]

/-- A lower bound on the addresses may be lowered. -/
theorem Memory.wfFrom_mono {lo' : Nat} (h : Memory.wfFrom lo m = true) (hle : lo' ≤ lo) :
    Memory.wfFrom lo' m = true := by
  cases m with
  | nil => rfl
  | cons kw rest =>
    obtain ⟨h1, h2⟩ := (Memory.wfFrom_cons ..).1 h
    exact (Memory.wfFrom_cons ..).2 ⟨by omega, h2⟩

/-- Below every listed address an unlisted one is read. -/
theorem Memory.read_below (h : Memory.wfFrom lo m = true) (ha : a < lo) : m.read a = Config.unlistedByte := by
  induction m generalizing lo with
  | nil => rfl
  | cons kw rest ih =>
    obtain ⟨h1, -, -, h4⟩ := (Memory.wfFrom_cons ..).1 h
    rw [Memory.read_cons, if_neg (by omega)]
    exact ih h4 (by omega)

theorem Memory.read_place_same (rest : Memory) (h : rest.read a = Config.unlistedByte) :
    (Memory.place a v rest).read a = v := by
  unfold Memory.place
  split
  · rename_i hv; rw [h, hv]
  · simp [Memory.read_cons]

theorem Memory.read_place_other (rest : Memory) (hne : a ≠ b) : (Memory.place a v rest).read b = rest.read b := by
  unfold Memory.place
  split
  · rfl
  · rw [Memory.read_cons, if_neg hne]

/-- A write leaves every other address alone, whatever the memory's form. -/
theorem Memory.read_write_other (hne : a ≠ b) : (m.write a v).read b = m.read b := by
  induction m with
  | nil => exact Memory.read_place_other [] hne
  | cons kw rest ih =>
    obtain ⟨k, w⟩ := kw
    simp only [Memory.write]
    split
    · exact Memory.read_place_other _ hne
    · split
      · rename_i h; subst h
        rw [Memory.read_place_other _ hne, Memory.read_cons, if_neg hne]
      · simp only [Memory.read_cons, ih]

theorem Memory.read_write_same_from (h : Memory.wfFrom lo m = true) : (m.write a v).read a = v := by
  induction m generalizing lo with
  | nil => exact Memory.read_place_same [] rfl
  | cons kw rest ih =>
    obtain ⟨k, w⟩ := kw
    obtain ⟨-, h2, h3, h4⟩ := (Memory.wfFrom_cons ..).1 h
    simp only [Memory.write]
    split
    · rename_i hlt
      exact Memory.read_place_same _
        (Memory.read_below ((Memory.wfFrom_cons ..).2 ⟨Nat.le_refl k, h2, h3, h4⟩) hlt)
    · split
      · rename_i heq
        exact Memory.read_place_same _ (Memory.read_below h4 (by omega))
      · rename_i hne
        rw [Memory.read_cons, if_neg (fun hk => hne hk.symm)]
        exact ih h4

/-- A read after a write to the same address gives the value written. -/
theorem Memory.read_write_same (h : m.wf = true) : (m.write a v).read a = v := Memory.read_write_same_from h

theorem Memory.place_wfFrom {rest : Memory} (h : Memory.wfFrom (a + 1) rest = true) (hlo : lo ≤ a) (ha : a < 65536) :
    Memory.wfFrom lo (Memory.place a v rest) = true := by
  unfold Memory.place
  split
  · exact Memory.wfFrom_mono h (by omega)
  · rename_i hv
    exact (Memory.wfFrom_cons ..).2 ⟨hlo, ha, hv, h⟩

theorem Memory.write_wfFrom (h : Memory.wfFrom lo m = true) (hlo : lo ≤ a) (ha : a < 65536) :
    Memory.wfFrom lo (m.write a v) = true := by
  induction m generalizing lo with
  | nil => exact Memory.place_wfFrom rfl hlo ha
  | cons kw rest ih =>
    obtain ⟨k, w⟩ := kw
    obtain ⟨h1, h2, h3, h4⟩ := (Memory.wfFrom_cons ..).1 h
    simp only [Memory.write]
    split
    · rename_i hlt
      exact Memory.place_wfFrom ((Memory.wfFrom_cons ..).2 ⟨hlt, h2, h3, h4⟩) hlo ha
    · split
      · rename_i heq; subst heq
        exact Memory.place_wfFrom h4 hlo ha
      · exact (Memory.wfFrom_cons ..).2 ⟨h1, h2, h3, ih h4 (by omega)⟩

/-- A write keeps the canonical form. -/
theorem Memory.write_wf (h : m.wf = true) (ha : a < 65536) : (m.write a v).wf = true :=
  Memory.write_wfFrom h (Nat.zero_le a) ha

/-- The machine after reset has a canonical memory. -/
theorem State.reset_mem_wf : State.reset.mem.wf = true := rfl

/-! ### The same laws for the machine's own read of one byte -/

@[simp] theorem State.byteAt_memWrite_same (s : State) (addr : Word) (v : Byte) (h : s.mem.wf = true) :
    (s.memWrite addr v).byteAt addr = v := Memory.read_write_same h

theorem State.byteAt_memWrite_other (s : State) {addr b : Word} (v : Byte) (hne : addr ≠ b) :
    (s.memWrite addr v).byteAt b = s.byteAt b :=
  Memory.read_write_other (fun h => hne (BitVec.eq_of_toNat_eq h))

theorem State.memWrite_wf (s : State) (addr : Word) (v : Byte) (h : s.mem.wf = true) :
    (s.memWrite addr v).mem.wf = true := Memory.write_wf h addr.isLt

end Sys2Proof.Machine
end

