-- ==== Sys2Proof/Laws/Ops.lean ====
section
/-! SUPPORT. One lemma per shared operation that says everything it does, as the state it answers; proofs cite these
and unfold no operation. -/

namespace Sys2Proof.Machine

/-! ### The bus, the fetch and the stack -/

theorem State.memRead_eq (s : State) (addr : Word) :
    s.memRead addr = (s.byteAt addr, { s with bus := s.bus ++ [s.readAt addr] }) := rfl

theorem State.memWrite_eq (s : State) (addr : Word) (v : Byte) :
    s.memWrite addr v = { s with mem := s.mem.write addr.toNat v, bus := s.bus ++ [.write addr v] } := rfl

theorem State.memRead16_eq (s : State) (lo hi : Word) :
    s.memRead16 lo hi =
      (joinBytes (s.byteAt lo) (s.byteAt hi), { s with bus := s.bus ++ [s.readAt lo, s.readAt hi] }) := by
  simp [State.memRead16, State.memRead, State.readAt, State.byteAt]

theorem State.fetch_eq (s : State) :
    s.fetch = (s.byteAt s.pc, { s with pc := s.pc + 1, bus := s.bus ++ [s.readAt s.pc] }) := rfl

theorem State.push_eq (s : State) (v : Byte) :
    s.push v = { s with mem := s.mem.write (stackAddr s.sp).toNat v, sp := s.sp - 1,
                        bus := s.bus ++ [.write (stackAddr s.sp) v] } := rfl

theorem State.pull_eq (s : State) :
    s.pull = (s.byteAt (stackAddr (s.sp + 1)),
      { s with sp := s.sp + 1, bus := s.bus ++ [s.readAt (stackAddr (s.sp + 1))] }) := rfl

theorem State.push16_eq (s : State) (w : Word) :
    s.push16 w =
      { s with
        mem := (s.mem.write (stackAddr s.sp).toNat (highByte w)).write (stackAddr (s.sp - 1)).toNat (lowByte w)
        sp := s.sp - 1 - 1
        bus := s.bus ++ [.write (stackAddr s.sp) (highByte w), .write (stackAddr (s.sp - 1)) (lowByte w)] } := by
  simp [State.push16, State.push_eq]

theorem State.pull16_eq (s : State) :
    s.pull16 = (joinBytes (s.byteAt (stackAddr (s.sp + 1))) (s.byteAt (stackAddr (s.sp + 1 + 1))),
      { s with sp := s.sp + 1 + 1
               bus := s.bus ++ [s.readAt (stackAddr (s.sp + 1)), s.readAt (stackAddr (s.sp + 1 + 1))] }) := by
  simp [State.pull16, State.pull_eq, State.readAt, State.byteAt]

/-- Setting every bit of the image in the live flags sets B and U and nothing else (10_state.md R36). -/
theorem Flags.ofByte_pushImage (f : Flags) : Flags.ofByte f.pushImage = { f with b := true, u := true } := by
  obtain ⟨c, z, i, d, b, u, v, n⟩ := f
  cases c <;> cases z <;> cases i <;> cases d <;> cases b <;> cases u <;> cases v <;> cases n <;> rfl

theorem State.pushStatus_eq (live : Bool) (s : State) :
    s.pushStatus live =
      { s with
        mem := s.mem.write (stackAddr s.sp).toNat s.p.pushImage
        sp := s.sp - 1
        p := if live then { s.p with b := true, u := true } else s.p
        bus := s.bus ++ [.write (stackAddr s.sp) s.p.pushImage] } := by
  cases live <;> simp [State.pushStatus, State.push_eq, State.writeP, Flags.ofByte_pushImage]

/-- No stack address is an address of the BRK vector. -/
theorem stackAddr_ne_brkVector (v : Byte) :
    stackAddr v ≠ Config.brkVector ∧ stackAddr v ≠ Config.brkVector + 1 := by
  revert v; decide

/-! ### The stack page -/

/-- A stack address is 0x0100 plus the stack pointer (10_state.md R21). -/
theorem stackAddr_toNat (v : Byte) : (stackAddr v).toNat = 256 + v.toNat := by
  revert v; decide

theorem stackAddr_inj {v w : Byte} : stackAddr v = stackAddr w ↔ v = w := by
  constructor
  · intro h
    have := congrArg BitVec.toNat h
    rw [stackAddr_toNat, stackAddr_toNat] at this
    exact BitVec.eq_of_toNat_eq (by omega)
  · rintro rfl; rfl

/-! ### The trap path -/

theorem State.trapEnter_eq (live : Bool) (ret : Word) (s : State) :
    s.trapEnter live ret =
      { s with
        sp := s.sp - 1 - 1 - 1
        pc := joinBytes (s.byteAt Config.brkVector) (s.byteAt (Config.brkVector + 1))
        p := if live then { s.p with i := true, b := true, u := true } else { s.p with i := true }
        mem := ((s.mem.write (stackAddr s.sp).toNat (highByte ret)).write
          (stackAddr (s.sp - 1)).toNat (lowByte ret)).write (stackAddr (s.sp - 1 - 1)).toNat s.p.pushImage
        bus := s.bus ++ [.write (stackAddr s.sp) (highByte ret), .write (stackAddr (s.sp - 1)) (lowByte ret),
          .write (stackAddr (s.sp - 1 - 1)) s.p.pushImage, s.readAt Config.brkVector,
          s.readAt (Config.brkVector + 1)] } := by
  have key : ∀ (x : Byte) (m : Memory) (v : Byte),
      (m.write (stackAddr x).toNat v).read Config.brkVector.toNat = m.read Config.brkVector.toNat ∧
      (m.write (stackAddr x).toNat v).read (Config.brkVector + 1#16).toNat = m.read (Config.brkVector + 1#16).toNat :=
    fun x m v => ⟨Memory.read_write_other (fun h => (stackAddr_ne_brkVector x).1 (BitVec.eq_of_toNat_eq h)),
      Memory.read_write_other (fun h => (stackAddr_ne_brkVector x).2 (BitVec.eq_of_toNat_eq h))⟩
  cases live <;>
    simp [-BitVec.toNat_add, State.trapEnter, State.push16_eq, State.pushStatus_eq, State.memRead16_eq, State.writeP, State.writePC,
      State.byteAt, State.readAt, (key _ _ _).1, (key _ _ _).2]

theorem State.trapReturn_eq (s : State) :
    s.trapReturn =
      { s with
        sp := s.sp + 1 + 1 + 1
        p := Flags.rtiLoad (s.byteAt (stackAddr (s.sp + 1)))
        pc := joinBytes (s.byteAt (stackAddr (s.sp + 1 + 1))) (s.byteAt (stackAddr (s.sp + 1 + 1 + 1)))
        bus := s.bus ++ [s.readAt (stackAddr (s.sp + 1)), s.readAt (stackAddr (s.sp + 1 + 1)),
          s.readAt (stackAddr (s.sp + 1 + 1 + 1))] } := by
  simp [State.trapReturn, State.pull_eq, State.pull16_eq, State.writeP, State.writePC, State.byteAt, State.readAt]

end Sys2Proof.Machine

namespace Sys2Proof

open Machine

/-! ### The resolver -/

/-- The resolver answers the effective address and does nothing but its pointer reads (40_dispatch_addressing.md
R126). -/
theorem AddrMode.resolve_eq (m : AddrMode) (s : State) :
    m.resolve s = (m.ea s, { s with bus := s.bus ++ m.pointerReads s }) := by
  cases m <;> simp [AddrMode.ea, AddrMode.resolve, AddrMode.pointerReads, State.resolveInd, State.memRead16_eq]

/-- Loading an operand does nothing but its reads. -/
theorem AddrMode.load_eq (m : AddrMode) (s : State) :
    m.load s = (m.value s, { s with bus := s.bus ++ m.operandReads s }) := by
  cases m <;>
    simp [AddrMode.value, AddrMode.load, AddrMode.operandReads, AddrMode.resolve_eq, State.memRead_eq, State.readAt,
      State.byteAt]

/-- The value of an operand is the byte at its effective address, but for Immediate, where it is the field (R141). -/
theorem AddrMode.value_eq (m : AddrMode) (s : State) :
    m.value s = match m with | .imm b => b | m => s.byteAt (m.ea s) := by
  cases m <;> simp [AddrMode.value, AddrMode.load, AddrMode.resolve_eq, State.memRead_eq, State.byteAt]

theorem AddrMode.store_eq (m : AddrMode) (v : Byte) (s : State) :
    m.store v s = { s with mem := s.mem.write (m.ea s).toNat v,
                           bus := s.bus ++ m.pointerReads s ++ [.write (m.ea s) v] } := by
  simp [AddrMode.store, AddrMode.resolve_eq, State.memWrite_eq]

theorem AddrMode.modify_eq (m : AddrMode) (f : Byte → Byte) (s : State) :
    m.modify f s = (s.byteAt (m.ea s),
      { s with mem := s.mem.write (m.ea s).toNat (f (s.byteAt (m.ea s)))
               bus := s.bus ++ m.pointerReads s ++
                 [s.readAt (m.ea s), .write (m.ea s) (f (s.byteAt (m.ea s)))] }) := by
  simp [AddrMode.modify, AddrMode.resolve_eq, State.memRead_eq, State.memWrite_eq, State.readAt, State.byteAt]

namespace Machine

/-! ### The shared meanings -/

theorem loadInto_eq (w : State → Byte → State) (m : AddrMode) (s : State) :
    loadInto w m s = .next ((w { s with bus := s.bus ++ m.operandReads s } (m.value s)).setNZ (m.value s)) := by
  simp [loadInto, AddrMode.load_eq]

theorem logicInto_eq (f : Byte → Byte → Byte) (m : AddrMode) (s : State) :
    logicInto f m s = .next { s with a := f s.a (m.value s), p := s.p.setNZ (f s.a (m.value s)),
                                     bus := s.bus ++ m.operandReads s } := by
  simp [logicInto, AddrMode.load_eq, State.writeA, State.setNZ, State.writeP]

theorem arithInto_eq (f : Byte → Byte → Bool → AluResult) (m : AddrMode) (s : State) :
    arithInto f m s =
      .next { s with a := (f s.a (m.value s) s.p.c).r
                     p := s.p.setArith (f s.a (m.value s) s.p.c).r (f s.a (m.value s) s.p.c).c
                       (f s.a (m.value s) s.p.c).v
                     bus := s.bus ++ m.operandReads s } := by
  simp [arithInto, AddrMode.load_eq, State.writeA, State.writeP]

theorem compareWith_eq (reg : State → Byte) (m : AddrMode) (s : State) :
    compareWith reg m s =
      (let t := { s with bus := s.bus ++ m.operandReads s }
       .next (t.setCNZ (compareCarry (reg t) (m.value s)) (compareResult (reg t) (m.value s)))) := by
  simp [compareWith, AddrMode.load_eq]

theorem opBit_eq (m : AddrMode) (s : State) :
    opBit m s = .next { s with p := s.p.bitTest s.a (m.value s), bus := s.bus ++ m.operandReads s } := by
  simp [opBit, AddrMode.load_eq, State.writeP]

theorem stepMem_eq (f : Byte → Byte) (m : AddrMode) (s : State) :
    stepMem f m s =
      .next { s with mem := s.mem.write (m.ea s).toNat (f (s.byteAt (m.ea s)))
                     p := s.p.setNZ (f (s.byteAt (m.ea s)))
                     bus := s.bus ++ m.pointerReads s ++
                       [s.readAt (m.ea s), .write (m.ea s) (f (s.byteAt (m.ea s)))] } := by
  simp [stepMem, AddrMode.modify_eq, State.setNZ, State.writeP]

theorem shiftMem_eq (f : Byte → Bool → Byte × Bool) (m : AddrMode) (s : State) :
    shiftMem f m s =
      .next { s with mem := s.mem.write (m.ea s).toNat (f (s.byteAt (m.ea s)) s.p.c).1
                     p := s.p.setCNZ (f (s.byteAt (m.ea s)) s.p.c).2 (f (s.byteAt (m.ea s)) s.p.c).1
                     bus := s.bus ++ m.pointerReads s ++
                       [s.readAt (m.ea s), .write (m.ea s) (f (s.byteAt (m.ea s)) s.p.c).1] } := by
  simp [shiftMem, AddrMode.modify_eq, State.setCNZ, State.writeP]

theorem shiftAcc_eq (f : Byte → Bool → Byte × Bool) (s : State) :
    shiftAcc f s = .next { s with a := (f s.a s.p.c).1, p := s.p.setCNZ (f s.a s.p.c).2 (f s.a s.p.c).1 } := rfl

theorem branchIf_eq (cond : Flags → Bool) (rel8 : Byte) (s : State) :
    branchIf cond rel8 s = .next { s with pc := if cond s.p then s.pc + sext16 rel8 else s.pc } := by
  by_cases h : cond s.p = true <;> simp [branchIf, AddrMode.resolve, h, State.writePC]

theorem jumpTo_eq (m : AddrMode) (s : State) :
    jumpTo m s = .next { s with pc := m.ea s, bus := s.bus ++ m.pointerReads s } := by
  simp [jumpTo, AddrMode.resolve_eq, State.writePC]

theorem callTo_eq (m : AddrMode) (s : State) :
    callTo m s =
      .next { s with
        pc := m.ea s
        sp := s.sp - 1 - 1
        mem := (s.mem.write (stackAddr s.sp).toNat (highByte (s.pc - 1))).write
          (stackAddr (s.sp - 1)).toNat (lowByte (s.pc - 1))
        bus := s.bus ++ m.pointerReads s ++ [.write (stackAddr s.sp) (highByte (s.pc - 1)),
          .write (stackAddr (s.sp - 1)) (lowByte (s.pc - 1))] } := by
  simp [callTo, AddrMode.resolve_eq, State.push16_eq, State.writePC]

theorem opRts_eq (s : State) :
    opRts s =
      .next { s with
        sp := s.sp + 1 + 1
        pc := joinBytes (s.byteAt (stackAddr (s.sp + 1))) (s.byteAt (stackAddr (s.sp + 1 + 1))) + 1
        bus := s.bus ++ [s.readAt (stackAddr (s.sp + 1)), s.readAt (stackAddr (s.sp + 1 + 1))] } := by
  simp [opRts, State.pull16_eq, State.writePC]

theorem opBrk_eq (s : State) : opBrk s = .next (s.trapEnter pushSetsLiveBU (s.pc + 1)) := rfl

theorem opRti_eq (s : State) : opRti s = .next s.trapReturn := rfl

theorem opPha_eq (s : State) : opPha s = .next (s.push s.a) := rfl

theorem opPhp_eq (s : State) : opPhp s = .next (s.pushStatus pushSetsLiveBU) := rfl

theorem opPla_eq (s : State) :
    opPla s = .next (({ s with sp := s.sp + 1, a := s.byteAt (stackAddr (s.sp + 1)),
                               bus := s.bus ++ [s.readAt (stackAddr (s.sp + 1))] } : State).setNZ
      (s.byteAt (stackAddr (s.sp + 1)))) := rfl

theorem opPlp_eq (s : State) :
    opPlp s = .next { s with sp := s.sp + 1, p := Flags.plpLoad (s.byteAt (stackAddr (s.sp + 1)))
                             bus := s.bus ++ [s.readAt (stackAddr (s.sp + 1))] } := rfl

/-! ### The fetch and the step -/

theorem State.fetchMany_zero (s : State) : State.fetchMany 0 s = ([], s) := rfl

theorem State.fetchMany_succ (n : Nat) (s : State) :
    State.fetchMany (n + 1) s =
      (s.byteAt s.pc :: (State.fetchMany n s.fetch.2).1, (State.fetchMany n s.fetch.2).2) := rfl

/-- A step is a fetch, then the instruction or the report (R121). -/
theorem step_eq (s : State) :
    step s = match s.beginStep.fetchInstr with
      | .instr i s' => exec i s'
      | .illegal s' => .next s' := rfl

end Machine

end Sys2Proof
end

