-- ==== Sys2Proof/Laws/Exec.lean ====
section
/-! SUPPORT. The 151 arms of `exec` seen as 56 operations over an operand, so that a proof about all instructions
splits on the operation and treats every address-producing mode at once. -/

namespace Sys2Proof.Machine

/-- The meaning of an operation with an operand. A pair that no instruction has is given the state back; `exec_eq_perform`
never meets one. -/
def perform (op : Operation) (o : Operand) (s : State) : Result :=
  match o with
  | .addr m =>
    match op with
    | .lda => loadInto State.writeA m s
    | .ldx => loadInto State.writeX m s
    | .ldy => loadInto State.writeY m s
    | .sta => .next (m.store s.a s)
    | .stx => .next (m.store s.x s)
    | .sty => .next (m.store s.y s)
    | .and => logicInto (fun a b => a &&& b) m s
    | .ora => logicInto (fun a b => a ||| b) m s
    | .eor => logicInto (fun a b => a ^^^ b) m s
    | .bit => opBit m s
    | .adc => arithInto addC m s
    | .sbc => arithInto subB m s
    | .cmp => compareWith State.a m s
    | .cpx => compareWith State.x m s
    | .cpy => compareWith State.y m s
    | .inc => stepMem inc8 m s
    | .dec => stepMem dec8 m s
    | .asl => shiftMem asl m s
    | .lsr => shiftMem lsr m s
    | .rol => shiftMem rol m s
    | .ror => shiftMem ror m s
    | .jmp => jumpTo m s
    | .jsr => callTo m s
    | op =>
      match m with
      | .rel b =>
        match op with
        | .bcc => branchIf (fun f => !f.c) b s
        | .bcs => branchIf (fun f => f.c) b s
        | .beq => branchIf (fun f => f.z) b s
        | .bne => branchIf (fun f => !f.z) b s
        | .bmi => branchIf (fun f => f.n) b s
        | .bpl => branchIf (fun f => !f.n) b s
        | .bvc => branchIf (fun f => !f.v) b s
        | .bvs => branchIf (fun f => f.v) b s
        | _ => .next s
      | _ => .next s
  | .acc =>
    match op with
    | .asl => shiftAcc asl s
    | .lsr => shiftAcc lsr s
    | .rol => shiftAcc rol s
    | .ror => shiftAcc ror s
    | _ => .next s
  | .imp =>
    match op with
    | .inx => execInx s
    | .iny => execIny s
    | .dex => execDex s
    | .dey => execDey s
    | .clc => execClc s
    | .sec => execSec s
    | .cld => execCld s
    | .sed => execSed s
    | .cli => execCli s
    | .sei => execSei s
    | .clv => execClv s
    | .rts => execRts s
    | .brk => execBrk s
    | .rti => execRti s
    | .tax => execTax s
    | .tay => execTay s
    | .txa => execTxa s
    | .tya => execTya s
    | .tsx => execTsx s
    | .txs => execTxs s
    | .pha => execPha s
    | .php => execPhp s
    | .pla => execPla s
    | .plp => execPlp s
    | _ => .next s

/-- Every arm of `exec` is its operation over its operand. -/
theorem exec_eq_perform (i : Instr) (s : State) : exec i s = perform i.operation i.operand s := by
  cases i <;> rfl

end Sys2Proof.Machine
end

