-- ==== Sys2Proof/Laws/Fetch.lean ====
section
/-! SUPPORT. What the fetch of an instruction answers, and that every operation that writes memory keeps its canonical
form. -/

namespace Sys2Proof.Machine

theorem operandCount_le (b : Byte) : operandCount b ≤ 2 := by
  unfold operandCount; split <;> omega

/-- The fetch decodes the opcode byte and as many bytes after it as that byte calls for; it reads those bytes, in
order, and moves PC past them, or reports the byte it could not decode (40_dispatch_addressing.md R121, R125). -/
theorem State.fetchInstr_eq (s : State) :
    s.beginStep.fetchInstr =
      match decode (s.codeBytes.take (1 + operandCount (s.byteAt s.pc))) with
      | .ok (i, _) => .instr i (s.afterFetch (1 + operandCount (s.byteAt s.pc)))
      | .error _ =>
        .illegal { s with pc := s.pc + 1, lastResult := .illegalOpcode (s.byteAt s.pc) s.pc,
                          bus := [s.readAt s.pc] } := by
  have hle := operandCount_le (s.byteAt s.pc)
  have e2 : s.pc + 1 + 1 = s.pc + 2 := by rw [BitVec.add_assoc]; rfl
  have e3 : s.pc + 2 + 1 = s.pc + 3 := by rw [BitVec.add_assoc]; rfl
  have hb : ∀ addr, s.beginStep.byteAt addr = s.byteAt addr := fun _ => rfl
  have hp : s.beginStep.pc = s.pc := rfl
  simp only [State.fetchInstr, State.fetch_eq, hb, hp]
  have hn : operandCount (s.byteAt s.pc) = 0 ∨ operandCount (s.byteAt s.pc) = 1 ∨
      operandCount (s.byteAt s.pc) = 2 := by omega
  rcases hn with h | h | h <;> rw [h]
  · rfl
  · simp only [State.fetchMany_succ, State.fetchMany_zero, State.fetch_eq, e2]; rfl
  · simp only [State.fetchMany_succ, State.fetchMany_zero, State.fetch_eq, e2, e3]; rfl

/-! ### The canonical form is kept -/

theorem State.push_wf (s : State) (v : Byte) (h : s.mem.wf = true) : (s.push v).mem.wf = true :=
  Memory.write_wf h (stackAddr s.sp).isLt

theorem State.push16_wf (s : State) (w : Word) (h : s.mem.wf = true) : (s.push16 w).mem.wf = true :=
  State.push_wf _ _ (State.push_wf s _ h)

theorem State.pushStatus_wf (live : Bool) (s : State) (h : s.mem.wf = true) :
    (s.pushStatus live).mem.wf = true := by
  rw [State.pushStatus_eq]; exact Memory.write_wf h (stackAddr s.sp).isLt

theorem State.trapEnter_wf (live : Bool) (ret : Word) (s : State) (h : s.mem.wf = true) :
    (s.trapEnter live ret).mem.wf = true := by
  rw [State.trapEnter_eq]
  exact Memory.write_wf (Memory.write_wf (Memory.write_wf h (stackAddr _).isLt) (stackAddr _).isLt) (stackAddr _).isLt

theorem store_wf (m : AddrMode) (v : Byte) (s : State) (h : s.mem.wf = true) : (m.store v s).mem.wf = true := by
  rw [AddrMode.store_eq]; exact Memory.write_wf h (m.ea s).isLt

theorem modify_wf (m : AddrMode) (f : Byte → Byte) (s : State) (h : s.mem.wf = true) :
    (m.modify f s).2.mem.wf = true := by
  rw [AddrMode.modify_eq]; exact Memory.write_wf h (m.ea s).isLt

theorem Memory.placeBytes_wf (bs : List Byte) (m : Memory) (addr : Word) (h : m.wf = true) :
    (m.placeBytes addr bs).wf = true := by
  induction bs generalizing m addr with
  | nil => exact h
  | cons b rest ih => exact ih _ _ (Memory.write_wf h addr.isLt)

theorem State.withFetchWord_wf (s : State) (nbits w : Nat) (h : s.mem.wf = true) :
    (s.withFetchWord nbits w).mem.wf = true := Memory.placeBytes_wf _ _ _ h

end Sys2Proof.Machine
end

