-- ==== Sys2Proof/Laws/PerInstr.lean ====
section
/-! SUPPORT. The per-instruction family Shape: an instruction is well formed, and its encoding has as many bytes as
its mode says (spec/30_encoding.md R90, R91). -/

namespace Sys2Proof.Laws.Shape

/-- Well formed, and encoded in the length of its mode. -/
def Statement (i : Instr) : Prop := i.wellFormed = true ∧ (encode i).length = i.length

theorem ldaImm (v : Byte) : Statement (.ldaImm v) := ⟨wellFormed_all _, rfl⟩
theorem ldaZp (v : Byte) : Statement (.ldaZp v) := ⟨wellFormed_all _, rfl⟩
theorem ldaZpx (v : Byte) : Statement (.ldaZpx v) := ⟨wellFormed_all _, rfl⟩
theorem ldaAbs (v : Word) : Statement (.ldaAbs v) := ⟨wellFormed_all _, rfl⟩
theorem ldaAbsx (v : Word) : Statement (.ldaAbsx v) := ⟨wellFormed_all _, rfl⟩
theorem ldaAbsy (v : Word) : Statement (.ldaAbsy v) := ⟨wellFormed_all _, rfl⟩
theorem ldaIndx (v : Byte) : Statement (.ldaIndx v) := ⟨wellFormed_all _, rfl⟩
theorem ldaIndy (v : Byte) : Statement (.ldaIndy v) := ⟨wellFormed_all _, rfl⟩
theorem ldxImm (v : Byte) : Statement (.ldxImm v) := ⟨wellFormed_all _, rfl⟩
theorem ldxZp (v : Byte) : Statement (.ldxZp v) := ⟨wellFormed_all _, rfl⟩
theorem ldxZpy (v : Byte) : Statement (.ldxZpy v) := ⟨wellFormed_all _, rfl⟩
theorem ldxAbs (v : Word) : Statement (.ldxAbs v) := ⟨wellFormed_all _, rfl⟩
theorem ldxAbsy (v : Word) : Statement (.ldxAbsy v) := ⟨wellFormed_all _, rfl⟩
theorem ldyImm (v : Byte) : Statement (.ldyImm v) := ⟨wellFormed_all _, rfl⟩
theorem ldyZp (v : Byte) : Statement (.ldyZp v) := ⟨wellFormed_all _, rfl⟩
theorem ldyZpx (v : Byte) : Statement (.ldyZpx v) := ⟨wellFormed_all _, rfl⟩
theorem ldyAbs (v : Word) : Statement (.ldyAbs v) := ⟨wellFormed_all _, rfl⟩
theorem ldyAbsx (v : Word) : Statement (.ldyAbsx v) := ⟨wellFormed_all _, rfl⟩
theorem staZp (v : Byte) : Statement (.staZp v) := ⟨wellFormed_all _, rfl⟩
theorem staZpx (v : Byte) : Statement (.staZpx v) := ⟨wellFormed_all _, rfl⟩
theorem staAbs (v : Word) : Statement (.staAbs v) := ⟨wellFormed_all _, rfl⟩
theorem staAbsx (v : Word) : Statement (.staAbsx v) := ⟨wellFormed_all _, rfl⟩
theorem staAbsy (v : Word) : Statement (.staAbsy v) := ⟨wellFormed_all _, rfl⟩
theorem staIndx (v : Byte) : Statement (.staIndx v) := ⟨wellFormed_all _, rfl⟩
theorem staIndy (v : Byte) : Statement (.staIndy v) := ⟨wellFormed_all _, rfl⟩
theorem stxZp (v : Byte) : Statement (.stxZp v) := ⟨wellFormed_all _, rfl⟩
theorem stxZpy (v : Byte) : Statement (.stxZpy v) := ⟨wellFormed_all _, rfl⟩
theorem stxAbs (v : Word) : Statement (.stxAbs v) := ⟨wellFormed_all _, rfl⟩
theorem styZp (v : Byte) : Statement (.styZp v) := ⟨wellFormed_all _, rfl⟩
theorem styZpx (v : Byte) : Statement (.styZpx v) := ⟨wellFormed_all _, rfl⟩
theorem styAbs (v : Word) : Statement (.styAbs v) := ⟨wellFormed_all _, rfl⟩
theorem andImm (v : Byte) : Statement (.andImm v) := ⟨wellFormed_all _, rfl⟩
theorem andZp (v : Byte) : Statement (.andZp v) := ⟨wellFormed_all _, rfl⟩
theorem andZpx (v : Byte) : Statement (.andZpx v) := ⟨wellFormed_all _, rfl⟩
theorem andAbs (v : Word) : Statement (.andAbs v) := ⟨wellFormed_all _, rfl⟩
theorem andAbsx (v : Word) : Statement (.andAbsx v) := ⟨wellFormed_all _, rfl⟩
theorem andAbsy (v : Word) : Statement (.andAbsy v) := ⟨wellFormed_all _, rfl⟩
theorem andIndx (v : Byte) : Statement (.andIndx v) := ⟨wellFormed_all _, rfl⟩
theorem andIndy (v : Byte) : Statement (.andIndy v) := ⟨wellFormed_all _, rfl⟩
theorem oraImm (v : Byte) : Statement (.oraImm v) := ⟨wellFormed_all _, rfl⟩
theorem oraZp (v : Byte) : Statement (.oraZp v) := ⟨wellFormed_all _, rfl⟩
theorem oraZpx (v : Byte) : Statement (.oraZpx v) := ⟨wellFormed_all _, rfl⟩
theorem oraAbs (v : Word) : Statement (.oraAbs v) := ⟨wellFormed_all _, rfl⟩
theorem oraAbsx (v : Word) : Statement (.oraAbsx v) := ⟨wellFormed_all _, rfl⟩
theorem oraAbsy (v : Word) : Statement (.oraAbsy v) := ⟨wellFormed_all _, rfl⟩
theorem oraIndx (v : Byte) : Statement (.oraIndx v) := ⟨wellFormed_all _, rfl⟩
theorem oraIndy (v : Byte) : Statement (.oraIndy v) := ⟨wellFormed_all _, rfl⟩
theorem eorImm (v : Byte) : Statement (.eorImm v) := ⟨wellFormed_all _, rfl⟩
theorem eorZp (v : Byte) : Statement (.eorZp v) := ⟨wellFormed_all _, rfl⟩
theorem eorZpx (v : Byte) : Statement (.eorZpx v) := ⟨wellFormed_all _, rfl⟩
theorem eorAbs (v : Word) : Statement (.eorAbs v) := ⟨wellFormed_all _, rfl⟩
theorem eorAbsx (v : Word) : Statement (.eorAbsx v) := ⟨wellFormed_all _, rfl⟩
theorem eorAbsy (v : Word) : Statement (.eorAbsy v) := ⟨wellFormed_all _, rfl⟩
theorem eorIndx (v : Byte) : Statement (.eorIndx v) := ⟨wellFormed_all _, rfl⟩
theorem eorIndy (v : Byte) : Statement (.eorIndy v) := ⟨wellFormed_all _, rfl⟩
theorem bitZp (v : Byte) : Statement (.bitZp v) := ⟨wellFormed_all _, rfl⟩
theorem bitAbs (v : Word) : Statement (.bitAbs v) := ⟨wellFormed_all _, rfl⟩
theorem adcImm (v : Byte) : Statement (.adcImm v) := ⟨wellFormed_all _, rfl⟩
theorem adcZp (v : Byte) : Statement (.adcZp v) := ⟨wellFormed_all _, rfl⟩
theorem adcZpx (v : Byte) : Statement (.adcZpx v) := ⟨wellFormed_all _, rfl⟩
theorem adcAbs (v : Word) : Statement (.adcAbs v) := ⟨wellFormed_all _, rfl⟩
theorem adcAbsx (v : Word) : Statement (.adcAbsx v) := ⟨wellFormed_all _, rfl⟩
theorem adcAbsy (v : Word) : Statement (.adcAbsy v) := ⟨wellFormed_all _, rfl⟩
theorem adcIndx (v : Byte) : Statement (.adcIndx v) := ⟨wellFormed_all _, rfl⟩
theorem adcIndy (v : Byte) : Statement (.adcIndy v) := ⟨wellFormed_all _, rfl⟩
theorem sbcImm (v : Byte) : Statement (.sbcImm v) := ⟨wellFormed_all _, rfl⟩
theorem sbcZp (v : Byte) : Statement (.sbcZp v) := ⟨wellFormed_all _, rfl⟩
theorem sbcZpx (v : Byte) : Statement (.sbcZpx v) := ⟨wellFormed_all _, rfl⟩
theorem sbcAbs (v : Word) : Statement (.sbcAbs v) := ⟨wellFormed_all _, rfl⟩
theorem sbcAbsx (v : Word) : Statement (.sbcAbsx v) := ⟨wellFormed_all _, rfl⟩
theorem sbcAbsy (v : Word) : Statement (.sbcAbsy v) := ⟨wellFormed_all _, rfl⟩
theorem sbcIndx (v : Byte) : Statement (.sbcIndx v) := ⟨wellFormed_all _, rfl⟩
theorem sbcIndy (v : Byte) : Statement (.sbcIndy v) := ⟨wellFormed_all _, rfl⟩
theorem cmpImm (v : Byte) : Statement (.cmpImm v) := ⟨wellFormed_all _, rfl⟩
theorem cmpZp (v : Byte) : Statement (.cmpZp v) := ⟨wellFormed_all _, rfl⟩
theorem cmpZpx (v : Byte) : Statement (.cmpZpx v) := ⟨wellFormed_all _, rfl⟩
theorem cmpAbs (v : Word) : Statement (.cmpAbs v) := ⟨wellFormed_all _, rfl⟩
theorem cmpAbsx (v : Word) : Statement (.cmpAbsx v) := ⟨wellFormed_all _, rfl⟩
theorem cmpAbsy (v : Word) : Statement (.cmpAbsy v) := ⟨wellFormed_all _, rfl⟩
theorem cmpIndx (v : Byte) : Statement (.cmpIndx v) := ⟨wellFormed_all _, rfl⟩
theorem cmpIndy (v : Byte) : Statement (.cmpIndy v) := ⟨wellFormed_all _, rfl⟩
theorem cpxImm (v : Byte) : Statement (.cpxImm v) := ⟨wellFormed_all _, rfl⟩
theorem cpxZp (v : Byte) : Statement (.cpxZp v) := ⟨wellFormed_all _, rfl⟩
theorem cpxAbs (v : Word) : Statement (.cpxAbs v) := ⟨wellFormed_all _, rfl⟩
theorem cpyImm (v : Byte) : Statement (.cpyImm v) := ⟨wellFormed_all _, rfl⟩
theorem cpyZp (v : Byte) : Statement (.cpyZp v) := ⟨wellFormed_all _, rfl⟩
theorem cpyAbs (v : Word) : Statement (.cpyAbs v) := ⟨wellFormed_all _, rfl⟩
theorem incZp (v : Byte) : Statement (.incZp v) := ⟨wellFormed_all _, rfl⟩
theorem incZpx (v : Byte) : Statement (.incZpx v) := ⟨wellFormed_all _, rfl⟩
theorem incAbs (v : Word) : Statement (.incAbs v) := ⟨wellFormed_all _, rfl⟩
theorem incAbsx (v : Word) : Statement (.incAbsx v) := ⟨wellFormed_all _, rfl⟩
theorem decZp (v : Byte) : Statement (.decZp v) := ⟨wellFormed_all _, rfl⟩
theorem decZpx (v : Byte) : Statement (.decZpx v) := ⟨wellFormed_all _, rfl⟩
theorem decAbs (v : Word) : Statement (.decAbs v) := ⟨wellFormed_all _, rfl⟩
theorem decAbsx (v : Word) : Statement (.decAbsx v) := ⟨wellFormed_all _, rfl⟩
theorem inx : Statement .inx := ⟨wellFormed_all _, rfl⟩
theorem iny : Statement .iny := ⟨wellFormed_all _, rfl⟩
theorem dex : Statement .dex := ⟨wellFormed_all _, rfl⟩
theorem dey : Statement .dey := ⟨wellFormed_all _, rfl⟩
theorem aslAcc : Statement .aslAcc := ⟨wellFormed_all _, rfl⟩
theorem aslZp (v : Byte) : Statement (.aslZp v) := ⟨wellFormed_all _, rfl⟩
theorem aslZpx (v : Byte) : Statement (.aslZpx v) := ⟨wellFormed_all _, rfl⟩
theorem aslAbs (v : Word) : Statement (.aslAbs v) := ⟨wellFormed_all _, rfl⟩
theorem aslAbsx (v : Word) : Statement (.aslAbsx v) := ⟨wellFormed_all _, rfl⟩
theorem lsrAcc : Statement .lsrAcc := ⟨wellFormed_all _, rfl⟩
theorem lsrZp (v : Byte) : Statement (.lsrZp v) := ⟨wellFormed_all _, rfl⟩
theorem lsrZpx (v : Byte) : Statement (.lsrZpx v) := ⟨wellFormed_all _, rfl⟩
theorem lsrAbs (v : Word) : Statement (.lsrAbs v) := ⟨wellFormed_all _, rfl⟩
theorem lsrAbsx (v : Word) : Statement (.lsrAbsx v) := ⟨wellFormed_all _, rfl⟩
theorem rolAcc : Statement .rolAcc := ⟨wellFormed_all _, rfl⟩
theorem rolZp (v : Byte) : Statement (.rolZp v) := ⟨wellFormed_all _, rfl⟩
theorem rolZpx (v : Byte) : Statement (.rolZpx v) := ⟨wellFormed_all _, rfl⟩
theorem rolAbs (v : Word) : Statement (.rolAbs v) := ⟨wellFormed_all _, rfl⟩
theorem rolAbsx (v : Word) : Statement (.rolAbsx v) := ⟨wellFormed_all _, rfl⟩
theorem rorAcc : Statement .rorAcc := ⟨wellFormed_all _, rfl⟩
theorem rorZp (v : Byte) : Statement (.rorZp v) := ⟨wellFormed_all _, rfl⟩
theorem rorZpx (v : Byte) : Statement (.rorZpx v) := ⟨wellFormed_all _, rfl⟩
theorem rorAbs (v : Word) : Statement (.rorAbs v) := ⟨wellFormed_all _, rfl⟩
theorem rorAbsx (v : Word) : Statement (.rorAbsx v) := ⟨wellFormed_all _, rfl⟩
theorem bcc (v : Byte) : Statement (.bcc v) := ⟨wellFormed_all _, rfl⟩
theorem bcs (v : Byte) : Statement (.bcs v) := ⟨wellFormed_all _, rfl⟩
theorem beq (v : Byte) : Statement (.beq v) := ⟨wellFormed_all _, rfl⟩
theorem bne (v : Byte) : Statement (.bne v) := ⟨wellFormed_all _, rfl⟩
theorem bmi (v : Byte) : Statement (.bmi v) := ⟨wellFormed_all _, rfl⟩
theorem bpl (v : Byte) : Statement (.bpl v) := ⟨wellFormed_all _, rfl⟩
theorem bvc (v : Byte) : Statement (.bvc v) := ⟨wellFormed_all _, rfl⟩
theorem bvs (v : Byte) : Statement (.bvs v) := ⟨wellFormed_all _, rfl⟩
theorem clc : Statement .clc := ⟨wellFormed_all _, rfl⟩
theorem sec : Statement .sec := ⟨wellFormed_all _, rfl⟩
theorem cld : Statement .cld := ⟨wellFormed_all _, rfl⟩
theorem sed : Statement .sed := ⟨wellFormed_all _, rfl⟩
theorem cli : Statement .cli := ⟨wellFormed_all _, rfl⟩
theorem sei : Statement .sei := ⟨wellFormed_all _, rfl⟩
theorem clv : Statement .clv := ⟨wellFormed_all _, rfl⟩
theorem jmpAbs (v : Word) : Statement (.jmpAbs v) := ⟨wellFormed_all _, rfl⟩
theorem jmpInd (v : Word) : Statement (.jmpInd v) := ⟨wellFormed_all _, rfl⟩
theorem jsrAbs (v : Word) : Statement (.jsrAbs v) := ⟨wellFormed_all _, rfl⟩
theorem rts : Statement .rts := ⟨wellFormed_all _, rfl⟩
theorem brk : Statement .brk := ⟨wellFormed_all _, rfl⟩
theorem rti : Statement .rti := ⟨wellFormed_all _, rfl⟩
theorem nop : Statement .nop := ⟨wellFormed_all _, rfl⟩
theorem tax : Statement .tax := ⟨wellFormed_all _, rfl⟩
theorem tay : Statement .tay := ⟨wellFormed_all _, rfl⟩
theorem txa : Statement .txa := ⟨wellFormed_all _, rfl⟩
theorem tya : Statement .tya := ⟨wellFormed_all _, rfl⟩
theorem tsx : Statement .tsx := ⟨wellFormed_all _, rfl⟩
theorem txs : Statement .txs := ⟨wellFormed_all _, rfl⟩
theorem pha : Statement .pha := ⟨wellFormed_all _, rfl⟩
theorem php : Statement .php := ⟨wellFormed_all _, rfl⟩
theorem pla : Statement .pla := ⟨wellFormed_all _, rfl⟩
theorem plp : Statement .plp := ⟨wellFormed_all _, rfl⟩

end Sys2Proof.Laws.Shape
end

