-- ==== Sys2Proof/Machine/Assembly.lean ====
section
/-! DEFINITION. The conventional assembler spelling of an instruction (spec/30_encoding.md R91, R100, D18). It has no
part in the meaning of any instruction. Text is a list of characters. -/

namespace Sys2Proof

/-- The mnemonic, in upper case. -/
def Operation.mnemonic : Operation → List Char
  | .lda => ['L', 'D', 'A']
  | .ldx => ['L', 'D', 'X']
  | .ldy => ['L', 'D', 'Y']
  | .sta => ['S', 'T', 'A']
  | .stx => ['S', 'T', 'X']
  | .sty => ['S', 'T', 'Y']
  | .and => ['A', 'N', 'D']
  | .ora => ['O', 'R', 'A']
  | .eor => ['E', 'O', 'R']
  | .bit => ['B', 'I', 'T']
  | .adc => ['A', 'D', 'C']
  | .sbc => ['S', 'B', 'C']
  | .cmp => ['C', 'M', 'P']
  | .cpx => ['C', 'P', 'X']
  | .cpy => ['C', 'P', 'Y']
  | .inc => ['I', 'N', 'C']
  | .dec => ['D', 'E', 'C']
  | .inx => ['I', 'N', 'X']
  | .iny => ['I', 'N', 'Y']
  | .dex => ['D', 'E', 'X']
  | .dey => ['D', 'E', 'Y']
  | .asl => ['A', 'S', 'L']
  | .lsr => ['L', 'S', 'R']
  | .rol => ['R', 'O', 'L']
  | .ror => ['R', 'O', 'R']
  | .bcc => ['B', 'C', 'C']
  | .bcs => ['B', 'C', 'S']
  | .beq => ['B', 'E', 'Q']
  | .bne => ['B', 'N', 'E']
  | .bmi => ['B', 'M', 'I']
  | .bpl => ['B', 'P', 'L']
  | .bvc => ['B', 'V', 'C']
  | .bvs => ['B', 'V', 'S']
  | .clc => ['C', 'L', 'C']
  | .sec => ['S', 'E', 'C']
  | .cld => ['C', 'L', 'D']
  | .sed => ['S', 'E', 'D']
  | .cli => ['C', 'L', 'I']
  | .sei => ['S', 'E', 'I']
  | .clv => ['C', 'L', 'V']
  | .jmp => ['J', 'M', 'P']
  | .jsr => ['J', 'S', 'R']
  | .rts => ['R', 'T', 'S']
  | .brk => ['B', 'R', 'K']
  | .rti => ['R', 'T', 'I']
  | .nop => ['N', 'O', 'P']
  | .tax => ['T', 'A', 'X']
  | .tay => ['T', 'A', 'Y']
  | .txa => ['T', 'X', 'A']
  | .tya => ['T', 'Y', 'A']
  | .tsx => ['T', 'S', 'X']
  | .txs => ['T', 'X', 'S']
  | .pha => ['P', 'H', 'A']
  | .php => ['P', 'H', 'P']
  | .pla => ['P', 'L', 'A']
  | .plp => ['P', 'L', 'P']

/-- One hexadecimal digit. -/
def hexDigit (n : Nat) : Char :=
  (['0', '1', '2', '3', '4', '5', '6', '7', '8', '9', 'A', 'B', 'C', 'D', 'E', 'F'][n]?).getD '?'

/-- Two hexadecimal digits. -/
def hexByte (b : Byte) : List Char := [hexDigit (b.toNat / 16), hexDigit (b.toNat % 16)]

/-- Four hexadecimal digits. -/
def hexWord (w : Word) : List Char := hexByte (Machine.highByte w) ++ hexByte (Machine.lowByte w)

/-- The operand in R91's syntax; a branch's operand is written as its target, so the address of the instruction is
needed (R100). -/
def AddrMode.text (here : Word) : AddrMode → List Char
  | .imm b => '#' :: '$' :: hexByte b
  | .zp b => '$' :: hexByte b
  | .zpx b => '$' :: hexByte b ++ [',', 'X']
  | .zpy b => '$' :: hexByte b ++ [',', 'Y']
  | .abs w => '$' :: hexWord w
  | .absx w => '$' :: hexWord w ++ [',', 'X']
  | .absy w => '$' :: hexWord w ++ [',', 'Y']
  | .ind w => '(' :: '$' :: hexWord w ++ [')']
  | .indx b => '(' :: '$' :: hexByte b ++ [',', 'X', ')']
  | .indy b => '(' :: '$' :: hexByte b ++ [')', ',', 'Y']
  | .rel b => '$' :: hexWord (here + 2 + Machine.sext16 b)

/-- An instruction at address `here` as R91 spells it. -/
def Instr.text (here : Word) (i : Instr) : List Char :=
  match i.operand with
  | .imp => i.operation.mnemonic
  | .acc => i.operation.mnemonic ++ [' ', 'A']
  | .addr m => i.operation.mnemonic ++ ' ' :: m.text here

end Sys2Proof
end

