-- ==== Sys2Proof/Tests/Slice0.lean ====
section
/-! SUPPORT. The author's own tests: the encodings of spec/opcode_table.json, the vectors of spec/95_test_vectors.md (one
theorem per mnemonic), ill-formed spellings, and a witness for the hypotheses of every statement that has any. Every
expected value is the spec's. -/

namespace Sys2Proof.Tests

open Machine

/-! ### Helpers -/

/-- The registers of a vector, the fields not written having the default start values of 95_test_vectors.md. -/
structure Regs where
  a : Byte := 0x00
  x : Byte := 0x00
  y : Byte := 0x00
  sp : Byte := 0xFF
  pc : Word := 0x0200
  p : Byte := 0x34
  deriving DecidableEq, Repr

/-- What a vector shows after a step: the registers, the bytes written as memory holds them, the result. -/
structure Seen where
  regs : Regs
  writes : List (Word × Byte)
  result : StepResult
  deriving DecidableEq, Repr

/-- A state with these registers, these bytes in memory and the code at PC. -/
def start (r : Regs) (code : List Byte) (cells : List (Word × Byte)) : State :=
  let s : State := { a := r.a, x := r.x, y := r.y, sp := r.sp, pc := r.pc, p := Flags.ofByte r.p,
                     mem := cells.foldl (fun m c => m.write c.1.toNat c.2) [], lastResult := .ok, bus := [] }
  s.placeAtPC code

/-- What a state shows. -/
def State.shown (s : State) : Seen :=
  ⟨{ a := s.a, x := s.x, y := s.y, sp := s.sp, pc := s.pc, p := s.p.toByte },
    s.bus.filterMap fun t => match t with
      | .write addr _ => some (addr, s.byteAt addr)
      | .read _ _ => none,
    s.lastResult⟩

/-- What one step from a start state shows. -/
def after (r : Regs) (code : List Byte) (cells : List (Word × Byte)) : Option Seen :=
  (nextState? (step (start r code cells))).map State.shown

/-- The instruction that a list of bytes is, all of them. -/
def reads (bs : List Byte) : Option Instr :=
  match decode bs with
  | .ok (i, []) => some i
  | _ => none

/-- The registers a call leaves. -/
def regsOf (s : State) : Regs := (State.shown s).regs

/-! ### Decoding: every opcode, from its encoding -/

/-- Row 0x of the opcode map: the encodings of spec/opcode_table.json, operand bytes 0x9C then 0x37. -/
theorem test_decode_row_0 :
    reads [0b00000000] = some .brk ∧
    reads [0b00000001, 0x9C] = some (.oraIndx 0x9C) ∧
    reads [0b00000101, 0x9C] = some (.oraZp 0x9C) ∧
    reads [0b00000110, 0x9C] = some (.aslZp 0x9C) ∧
    reads [0b00001000] = some .php ∧
    reads [0b00001001, 0x9C] = some (.oraImm 0x9C) ∧
    reads [0b00001010] = some .aslAcc ∧
    reads [0b00001101, 0x9C, 0x37] = some (.oraAbs 0x379C) ∧
    reads [0b00001110, 0x9C, 0x37] = some (.aslAbs 0x379C) := by decide

/-- Row 1x of the opcode map: the encodings of spec/opcode_table.json, operand bytes 0x9C then 0x37. -/
theorem test_decode_row_1 :
    reads [0b00010000, 0x9C] = some (.bpl 0x9C) ∧
    reads [0b00010001, 0x9C] = some (.oraIndy 0x9C) ∧
    reads [0b00010101, 0x9C] = some (.oraZpx 0x9C) ∧
    reads [0b00010110, 0x9C] = some (.aslZpx 0x9C) ∧
    reads [0b00011000] = some .clc ∧
    reads [0b00011001, 0x9C, 0x37] = some (.oraAbsy 0x379C) ∧
    reads [0b00011101, 0x9C, 0x37] = some (.oraAbsx 0x379C) ∧
    reads [0b00011110, 0x9C, 0x37] = some (.aslAbsx 0x379C) := by decide

/-- Row 2x of the opcode map: the encodings of spec/opcode_table.json, operand bytes 0x9C then 0x37. -/
theorem test_decode_row_2 :
    reads [0b00100000, 0x9C, 0x37] = some (.jsrAbs 0x379C) ∧
    reads [0b00100001, 0x9C] = some (.andIndx 0x9C) ∧
    reads [0b00100100, 0x9C] = some (.bitZp 0x9C) ∧
    reads [0b00100101, 0x9C] = some (.andZp 0x9C) ∧
    reads [0b00100110, 0x9C] = some (.rolZp 0x9C) ∧
    reads [0b00101000] = some .plp ∧
    reads [0b00101001, 0x9C] = some (.andImm 0x9C) ∧
    reads [0b00101010] = some .rolAcc ∧
    reads [0b00101100, 0x9C, 0x37] = some (.bitAbs 0x379C) ∧
    reads [0b00101101, 0x9C, 0x37] = some (.andAbs 0x379C) ∧
    reads [0b00101110, 0x9C, 0x37] = some (.rolAbs 0x379C) := by decide

/-- Row 3x of the opcode map: the encodings of spec/opcode_table.json, operand bytes 0x9C then 0x37. -/
theorem test_decode_row_3 :
    reads [0b00110000, 0x9C] = some (.bmi 0x9C) ∧
    reads [0b00110001, 0x9C] = some (.andIndy 0x9C) ∧
    reads [0b00110101, 0x9C] = some (.andZpx 0x9C) ∧
    reads [0b00110110, 0x9C] = some (.rolZpx 0x9C) ∧
    reads [0b00111000] = some .sec ∧
    reads [0b00111001, 0x9C, 0x37] = some (.andAbsy 0x379C) ∧
    reads [0b00111101, 0x9C, 0x37] = some (.andAbsx 0x379C) ∧
    reads [0b00111110, 0x9C, 0x37] = some (.rolAbsx 0x379C) := by decide

/-- Row 4x of the opcode map: the encodings of spec/opcode_table.json, operand bytes 0x9C then 0x37. -/
theorem test_decode_row_4 :
    reads [0b01000000] = some .rti ∧
    reads [0b01000001, 0x9C] = some (.eorIndx 0x9C) ∧
    reads [0b01000101, 0x9C] = some (.eorZp 0x9C) ∧
    reads [0b01000110, 0x9C] = some (.lsrZp 0x9C) ∧
    reads [0b01001000] = some .pha ∧
    reads [0b01001001, 0x9C] = some (.eorImm 0x9C) ∧
    reads [0b01001010] = some .lsrAcc ∧
    reads [0b01001100, 0x9C, 0x37] = some (.jmpAbs 0x379C) ∧
    reads [0b01001101, 0x9C, 0x37] = some (.eorAbs 0x379C) ∧
    reads [0b01001110, 0x9C, 0x37] = some (.lsrAbs 0x379C) := by decide

/-- Row 5x of the opcode map: the encodings of spec/opcode_table.json, operand bytes 0x9C then 0x37. -/
theorem test_decode_row_5 :
    reads [0b01010000, 0x9C] = some (.bvc 0x9C) ∧
    reads [0b01010001, 0x9C] = some (.eorIndy 0x9C) ∧
    reads [0b01010101, 0x9C] = some (.eorZpx 0x9C) ∧
    reads [0b01010110, 0x9C] = some (.lsrZpx 0x9C) ∧
    reads [0b01011000] = some .cli ∧
    reads [0b01011001, 0x9C, 0x37] = some (.eorAbsy 0x379C) ∧
    reads [0b01011101, 0x9C, 0x37] = some (.eorAbsx 0x379C) ∧
    reads [0b01011110, 0x9C, 0x37] = some (.lsrAbsx 0x379C) := by decide

/-- Row 6x of the opcode map: the encodings of spec/opcode_table.json, operand bytes 0x9C then 0x37. -/
theorem test_decode_row_6 :
    reads [0b01100000] = some .rts ∧
    reads [0b01100001, 0x9C] = some (.adcIndx 0x9C) ∧
    reads [0b01100101, 0x9C] = some (.adcZp 0x9C) ∧
    reads [0b01100110, 0x9C] = some (.rorZp 0x9C) ∧
    reads [0b01101000] = some .pla ∧
    reads [0b01101001, 0x9C] = some (.adcImm 0x9C) ∧
    reads [0b01101010] = some .rorAcc ∧
    reads [0b01101100, 0x9C, 0x37] = some (.jmpInd 0x379C) ∧
    reads [0b01101101, 0x9C, 0x37] = some (.adcAbs 0x379C) ∧
    reads [0b01101110, 0x9C, 0x37] = some (.rorAbs 0x379C) := by decide

/-- Row 7x of the opcode map: the encodings of spec/opcode_table.json, operand bytes 0x9C then 0x37. -/
theorem test_decode_row_7 :
    reads [0b01110000, 0x9C] = some (.bvs 0x9C) ∧
    reads [0b01110001, 0x9C] = some (.adcIndy 0x9C) ∧
    reads [0b01110101, 0x9C] = some (.adcZpx 0x9C) ∧
    reads [0b01110110, 0x9C] = some (.rorZpx 0x9C) ∧
    reads [0b01111000] = some .sei ∧
    reads [0b01111001, 0x9C, 0x37] = some (.adcAbsy 0x379C) ∧
    reads [0b01111101, 0x9C, 0x37] = some (.adcAbsx 0x379C) ∧
    reads [0b01111110, 0x9C, 0x37] = some (.rorAbsx 0x379C) := by decide

/-- Row 8x of the opcode map: the encodings of spec/opcode_table.json, operand bytes 0x9C then 0x37. -/
theorem test_decode_row_8 :
    reads [0b10000001, 0x9C] = some (.staIndx 0x9C) ∧
    reads [0b10000100, 0x9C] = some (.styZp 0x9C) ∧
    reads [0b10000101, 0x9C] = some (.staZp 0x9C) ∧
    reads [0b10000110, 0x9C] = some (.stxZp 0x9C) ∧
    reads [0b10001000] = some .dey ∧
    reads [0b10001010] = some .txa ∧
    reads [0b10001100, 0x9C, 0x37] = some (.styAbs 0x379C) ∧
    reads [0b10001101, 0x9C, 0x37] = some (.staAbs 0x379C) ∧
    reads [0b10001110, 0x9C, 0x37] = some (.stxAbs 0x379C) := by decide

/-- Row 9x of the opcode map: the encodings of spec/opcode_table.json, operand bytes 0x9C then 0x37. -/
theorem test_decode_row_9 :
    reads [0b10010000, 0x9C] = some (.bcc 0x9C) ∧
    reads [0b10010001, 0x9C] = some (.staIndy 0x9C) ∧
    reads [0b10010100, 0x9C] = some (.styZpx 0x9C) ∧
    reads [0b10010101, 0x9C] = some (.staZpx 0x9C) ∧
    reads [0b10010110, 0x9C] = some (.stxZpy 0x9C) ∧
    reads [0b10011000] = some .tya ∧
    reads [0b10011001, 0x9C, 0x37] = some (.staAbsy 0x379C) ∧
    reads [0b10011010] = some .txs ∧
    reads [0b10011101, 0x9C, 0x37] = some (.staAbsx 0x379C) := by decide

/-- Row Ax of the opcode map: the encodings of spec/opcode_table.json, operand bytes 0x9C then 0x37. -/
theorem test_decode_row_A :
    reads [0b10100000, 0x9C] = some (.ldyImm 0x9C) ∧
    reads [0b10100001, 0x9C] = some (.ldaIndx 0x9C) ∧
    reads [0b10100010, 0x9C] = some (.ldxImm 0x9C) ∧
    reads [0b10100100, 0x9C] = some (.ldyZp 0x9C) ∧
    reads [0b10100101, 0x9C] = some (.ldaZp 0x9C) ∧
    reads [0b10100110, 0x9C] = some (.ldxZp 0x9C) ∧
    reads [0b10101000] = some .tay ∧
    reads [0b10101001, 0x9C] = some (.ldaImm 0x9C) ∧
    reads [0b10101010] = some .tax ∧
    reads [0b10101100, 0x9C, 0x37] = some (.ldyAbs 0x379C) ∧
    reads [0b10101101, 0x9C, 0x37] = some (.ldaAbs 0x379C) ∧
    reads [0b10101110, 0x9C, 0x37] = some (.ldxAbs 0x379C) := by decide

/-- Row Bx of the opcode map: the encodings of spec/opcode_table.json, operand bytes 0x9C then 0x37. -/
theorem test_decode_row_B :
    reads [0b10110000, 0x9C] = some (.bcs 0x9C) ∧
    reads [0b10110001, 0x9C] = some (.ldaIndy 0x9C) ∧
    reads [0b10110100, 0x9C] = some (.ldyZpx 0x9C) ∧
    reads [0b10110101, 0x9C] = some (.ldaZpx 0x9C) ∧
    reads [0b10110110, 0x9C] = some (.ldxZpy 0x9C) ∧
    reads [0b10111000] = some .clv ∧
    reads [0b10111001, 0x9C, 0x37] = some (.ldaAbsy 0x379C) ∧
    reads [0b10111010] = some .tsx ∧
    reads [0b10111100, 0x9C, 0x37] = some (.ldyAbsx 0x379C) ∧
    reads [0b10111101, 0x9C, 0x37] = some (.ldaAbsx 0x379C) ∧
    reads [0b10111110, 0x9C, 0x37] = some (.ldxAbsy 0x379C) := by decide

/-- Row Cx of the opcode map: the encodings of spec/opcode_table.json, operand bytes 0x9C then 0x37. -/
theorem test_decode_row_C :
    reads [0b11000000, 0x9C] = some (.cpyImm 0x9C) ∧
    reads [0b11000001, 0x9C] = some (.cmpIndx 0x9C) ∧
    reads [0b11000100, 0x9C] = some (.cpyZp 0x9C) ∧
    reads [0b11000101, 0x9C] = some (.cmpZp 0x9C) ∧
    reads [0b11000110, 0x9C] = some (.decZp 0x9C) ∧
    reads [0b11001000] = some .iny ∧
    reads [0b11001001, 0x9C] = some (.cmpImm 0x9C) ∧
    reads [0b11001010] = some .dex ∧
    reads [0b11001100, 0x9C, 0x37] = some (.cpyAbs 0x379C) ∧
    reads [0b11001101, 0x9C, 0x37] = some (.cmpAbs 0x379C) ∧
    reads [0b11001110, 0x9C, 0x37] = some (.decAbs 0x379C) := by decide

/-- Row Dx of the opcode map: the encodings of spec/opcode_table.json, operand bytes 0x9C then 0x37. -/
theorem test_decode_row_D :
    reads [0b11010000, 0x9C] = some (.bne 0x9C) ∧
    reads [0b11010001, 0x9C] = some (.cmpIndy 0x9C) ∧
    reads [0b11010101, 0x9C] = some (.cmpZpx 0x9C) ∧
    reads [0b11010110, 0x9C] = some (.decZpx 0x9C) ∧
    reads [0b11011000] = some .cld ∧
    reads [0b11011001, 0x9C, 0x37] = some (.cmpAbsy 0x379C) ∧
    reads [0b11011101, 0x9C, 0x37] = some (.cmpAbsx 0x379C) ∧
    reads [0b11011110, 0x9C, 0x37] = some (.decAbsx 0x379C) := by decide

/-- Row Ex of the opcode map: the encodings of spec/opcode_table.json, operand bytes 0x9C then 0x37. -/
theorem test_decode_row_E :
    reads [0b11100000, 0x9C] = some (.cpxImm 0x9C) ∧
    reads [0b11100001, 0x9C] = some (.sbcIndx 0x9C) ∧
    reads [0b11100100, 0x9C] = some (.cpxZp 0x9C) ∧
    reads [0b11100101, 0x9C] = some (.sbcZp 0x9C) ∧
    reads [0b11100110, 0x9C] = some (.incZp 0x9C) ∧
    reads [0b11101000] = some .inx ∧
    reads [0b11101001, 0x9C] = some (.sbcImm 0x9C) ∧
    reads [0b11101010] = some .nop ∧
    reads [0b11101100, 0x9C, 0x37] = some (.cpxAbs 0x379C) ∧
    reads [0b11101101, 0x9C, 0x37] = some (.sbcAbs 0x379C) ∧
    reads [0b11101110, 0x9C, 0x37] = some (.incAbs 0x379C) := by decide

/-- Row Fx of the opcode map: the encodings of spec/opcode_table.json, operand bytes 0x9C then 0x37. -/
theorem test_decode_row_F :
    reads [0b11110000, 0x9C] = some (.beq 0x9C) ∧
    reads [0b11110001, 0x9C] = some (.sbcIndy 0x9C) ∧
    reads [0b11110101, 0x9C] = some (.sbcZpx 0x9C) ∧
    reads [0b11110110, 0x9C] = some (.incZpx 0x9C) ∧
    reads [0b11111000] = some .sed ∧
    reads [0b11111001, 0x9C, 0x37] = some (.sbcAbsy 0x379C) ∧
    reads [0b11111101, 0x9C, 0x37] = some (.sbcAbsx 0x379C) ∧
    reads [0b11111110, 0x9C, 0x37] = some (.incAbsx 0x379C) := by decide

/-- 30_encoding.md R96: every illegal byte is refused by name, whatever follows. -/
theorem test_illegal_bytes_refused :
    (illegalBytes.all fun b => decide (decode [b, 0x9C, 0x37] = .error (.illegalOpcode b))) = true := by decide

/-- The decoder names the byte of an instruction that is cut short. -/
theorem test_truncated_refused :
    decode [0xAD, 0x34] = .error (.truncated 0xAD) ∧ decode [0xA9] = .error (.truncated 0xA9) ∧
    decode [] = .error .noBytes := by decide

/-- The encoder writes the words the table gives (30_encoding.md R92: low byte first). -/
theorem test_encode :
    encode (.jmpInd 0x10FF) = [0x6C, 0xFF, 0x10] ∧ encode (.stxZpy 0xFF) = [0x96, 0xFF] ∧ encode .brk = [0x00] ∧
    encode (.bne 0xF8) = [0xD0, 0xF8] := by decide

/-- The table's numbering: bit 0 is bit 0 of the first byte, the second byte is bits 15..8. -/
theorem test_table_word :
    decodeTableWord 24 0x1234AD = some (.ldaAbs 0x1234) ∧ decodeTableWord 8 0xFFEA = some .nop ∧
    decodeTableWord 16 0x02 = none := by decide

/-- An instruction stored by `withFetchWord` is the first one to run after reset, at 0x0000. -/
theorem test_with_fetch_word :
    (nextState? (step (State.reset.withFetchWord 16 0x80A9))).map regsOf =
      some { a := 0x80, p := 0xB4, pc := 0x0002 } := by decide

/-! ### Well-formedness -/

/-- A spelling whose pair is not in 30_encoding.md R95 (STA has no Immediate form) is refused by `pairLegal` alone. -/
theorem test_ill_formed_pair :
    Spelled.pairLegal ⟨.sta, .imm, 0x55⟩ = false ∧ Spelled.fieldFits ⟨.sta, .imm, 0x55⟩ = true ∧
    Spelled.wellFormed ⟨.sta, .imm, 0x55⟩ = false := by decide

/-- A spelling whose number does not fit its field (R92), and a number where there is no field, are refused by
`fieldFits` alone. -/
theorem test_ill_formed_field :
    (Spelled.pairLegal ⟨.lda, .zp, 256⟩ = true ∧ Spelled.fieldFits ⟨.lda, .zp, 256⟩ = false) ∧
    (Spelled.pairLegal ⟨.jmp, .abs, 65536⟩ = true ∧ Spelled.fieldFits ⟨.jmp, .abs, 65536⟩ = false) ∧
    (Spelled.pairLegal ⟨.nop, .imp, 1⟩ = true ∧ Spelled.fieldFits ⟨.nop, .imp, 1⟩ = false) ∧
    Spelled.wellFormed ⟨.lda, .zp, 256⟩ = false := by decide

/-- The assembler refuses what is ill formed and writes the rest. -/
theorem test_assemble :
    Spelled.assemble ⟨.sta, .imm, 0x55⟩ = none ∧ Spelled.assemble ⟨.lda, .zp, 256⟩ = none ∧
    Spelled.assemble ⟨.sta, .absx, 0x0400⟩ = some [0x9D, 0x00, 0x04] := by decide

/-- Assembler text and branch fields as the listings P1, P4 and P5 of 95_test_vectors.md have them (R91, R100). -/
theorem test_assembler_text :
    Instr.text 0x020A (.bne 0xF8) = "BNE $0204".toList ∧ Instr.text 0x0200 (.ldaIndy 0xFF) = "LDA ($FF),Y".toList ∧
    Instr.text 0x0202 (.ldaAbsx 0x0300) = "LDA $0300,X".toList ∧ Instr.text 0x0310 .aslAcc = "ASL A".toList ∧
    branchField 0x020A 0x0204 = some 0xF8 ∧ branchField 0x0200 0x0400 = none := by decide

/-! ### The vectors of 95_test_vectors.md, one step each -/

/-- 95_test_vectors.md LS-1, LS-2, LS-3, LS-4, LS-5, LS-6, LS-7, LS-8, LS-9, LS-10, LS-11, DX-4. -/
theorem test_lda :
    after {} [0xA9, 0x00] [] = some ⟨{ pc := 0x0202, p := 0x36 }, [], .ok⟩ ∧
    after {} [0xA9, 0x80] [] = some ⟨{ a := 0x80, pc := 0x0202, p := 0xB4 }, [], .ok⟩ ∧
    after {} [0xA5, 0x10] [(0x0010, 0x7F)] = some ⟨{ a := 0x7F, pc := 0x0202 }, [], .ok⟩ ∧
    after { x := 0x01 } [0xB5, 0xFF] [(0x0000, 0x55)] = some ⟨{ a := 0x55, x := 0x01, pc := 0x0202 }, [], .ok⟩ ∧
    after {} [0xAD, 0x34, 0x12] [(0x1234, 0x01)] = some ⟨{ a := 0x01, pc := 0x0203 }, [], .ok⟩ ∧
    after { x := 0x01 } [0xBD, 0xFF, 0x12] [(0x1300, 0xAA)] =
      some ⟨{ a := 0xAA, x := 0x01, pc := 0x0203, p := 0xB4 }, [], .ok⟩ ∧
    after { y := 0x20 } [0xB9, 0xF0, 0xFF] [(0x0010, 0x33)] = some ⟨{ a := 0x33, y := 0x20, pc := 0x0203 }, [], .ok⟩ ∧
    after { x := 0x04 } [0xA1, 0x10] [(0x0014, 0x00), (0x0015, 0x30), (0x3000, 0xC3)] =
      some ⟨{ a := 0xC3, x := 0x04, pc := 0x0202, p := 0xB4 }, [], .ok⟩ ∧
    after { y := 0x05 } [0xB1, 0x20] [(0x0020, 0x00), (0x0021, 0x40), (0x4005, 0x09)] =
      some ⟨{ a := 0x09, y := 0x05, pc := 0x0202 }, [], .ok⟩ ∧
    after { x := 0x01 } [0xA1, 0xFE] [(0x00FF, 0x34), (0x0100, 0x12), (0x1234, 0x77)] =
      some ⟨{ a := 0x77, x := 0x01, pc := 0x0202 }, [], .ok⟩ ∧
    after { y := 0x01 } [0xB1, 0xFF] [(0x00FF, 0x34), (0x0100, 0x12), (0x1235, 0x99)] =
      some ⟨{ a := 0x99, y := 0x01, pc := 0x0202, p := 0xB4 }, [], .ok⟩ ∧
    after { pc := 0xFFFF } [0xA9, 0x05] [] = some ⟨{ a := 0x05, pc := 0x0001 }, [], .ok⟩ := by decide

/-- 95_test_vectors.md LS-12, LS-13. -/
theorem test_ldx :
    after { x := 0x33 } [0xA2, 0x00] [] = some ⟨{ pc := 0x0202, p := 0x36 }, [], .ok⟩ ∧
    after { y := 0x20 } [0xB6, 0xF0] [(0x0010, 0x81)] =
      some ⟨{ x := 0x81, y := 0x20, pc := 0x0202, p := 0xB4 }, [], .ok⟩ := by decide

/-- 95_test_vectors.md LS-14, LS-15. -/
theorem test_ldy :
    after {} [0xA0, 0xFF] [] = some ⟨{ y := 0xFF, pc := 0x0202, p := 0xB4 }, [], .ok⟩ ∧
    after { x := 0x02 } [0xBC, 0x00, 0x30] [(0x3002, 0x40)] =
      some ⟨{ x := 0x02, y := 0x40, pc := 0x0203 }, [], .ok⟩ := by decide

/-- 95_test_vectors.md LS-16, LS-17, LS-18. -/
theorem test_sta :
    after { p := 0xB5 } [0x85, 0x10] [] = some ⟨{ pc := 0x0202, p := 0xB5 }, [(0x0010, 0x00)], .ok⟩ ∧
    after { a := 0x5A, y := 0xFF } [0x99, 0x00, 0x30] [] =
      some ⟨{ a := 0x5A, y := 0xFF, pc := 0x0203 }, [(0x30FF, 0x5A)], .ok⟩ ∧
    after { a := 0xE1, y := 0x10 } [0x91, 0x40] [(0x0040, 0xF8), (0x0041, 0x12)] =
      some ⟨{ a := 0xE1, y := 0x10, pc := 0x0202 }, [(0x1308, 0xE1)], .ok⟩ := by decide

/-- 95_test_vectors.md LS-19. -/
theorem test_stx :
    after { x := 0x9C, y := 0x02 } [0x96, 0xFF] [] =
      some ⟨{ x := 0x9C, y := 0x02, pc := 0x0202 }, [(0x0001, 0x9C)], .ok⟩ := by decide

/-- 95_test_vectors.md LS-20. -/
theorem test_sty :
    after { y := 0x80 } [0x8C, 0x34, 0x12] [] = some ⟨{ y := 0x80, pc := 0x0203 }, [(0x1234, 0x80)], .ok⟩ := by decide

/-- 95_test_vectors.md AL-1. -/
theorem test_and :
    after { a := 0xF0 } [0x29, 0x0F] [] = some ⟨{ pc := 0x0202, p := 0x36 }, [], .ok⟩ := by decide

/-- 95_test_vectors.md AL-2. -/
theorem test_ora :
    after { a := 0x01 } [0x09, 0x80] [] = some ⟨{ a := 0x81, pc := 0x0202, p := 0xB4 }, [], .ok⟩ := by decide

/-- 95_test_vectors.md AL-3. -/
theorem test_eor :
    after { a := 0xFF } [0x49, 0xFF] [] = some ⟨{ pc := 0x0202, p := 0x36 }, [], .ok⟩ := by decide

/-- 95_test_vectors.md AL-4, AL-5. -/
theorem test_bit :
    after { a := 0x01 } [0x24, 0x10] [(0x0010, 0xC0)] = some ⟨{ a := 0x01, pc := 0x0202, p := 0xF6 }, [], .ok⟩ ∧
    after { a := 0xFF, p := 0xF6 } [0x2C, 0x00, 0x30] [(0x3000, 0x01)] =
      some ⟨{ a := 0xFF, pc := 0x0203 }, [], .ok⟩ := by decide

/-- 95_test_vectors.md AL-6, AL-7, AL-8, AL-9, AL-10, AL-11. -/
theorem test_adc :
    after { a := 0x7F } [0x69, 0x01] [] = some ⟨{ a := 0x80, pc := 0x0202, p := 0xF4 }, [], .ok⟩ ∧
    after { a := 0xFF } [0x69, 0x01] [] = some ⟨{ pc := 0x0202, p := 0x37 }, [], .ok⟩ ∧
    after {} [0x69, 0x00] [] = some ⟨{ pc := 0x0202, p := 0x36 }, [], .ok⟩ ∧
    after { a := 0x80 } [0x69, 0x80] [] = some ⟨{ pc := 0x0202, p := 0x77 }, [], .ok⟩ ∧
    after { a := 0xFF, p := 0x35 } [0x69, 0xFF] [] = some ⟨{ a := 0xFF, pc := 0x0202, p := 0xB5 }, [], .ok⟩ ∧
    after { a := 0x09, p := 0x3C } [0x69, 0x01] [] =
      some ⟨{ a := 0x0A, pc := 0x0202, p := 0x3C }, [], .ok⟩ := by decide

/-- 95_test_vectors.md AL-12, AL-13, AL-14, AL-15, AL-16, AL-17. -/
theorem test_sbc :
    after { p := 0x35 } [0xE9, 0x01] [] = some ⟨{ a := 0xFF, pc := 0x0202, p := 0xB4 }, [], .ok⟩ ∧
    after { a := 0x80, p := 0x35 } [0xE9, 0x01] [] = some ⟨{ a := 0x7F, pc := 0x0202, p := 0x75 }, [], .ok⟩ ∧
    after {} [0xE9, 0x00] [] = some ⟨{ a := 0xFF, pc := 0x0202, p := 0xB4 }, [], .ok⟩ ∧
    after { a := 0x7F, p := 0x35 } [0xE9, 0xFF] [] = some ⟨{ a := 0x80, pc := 0x0202, p := 0xF4 }, [], .ok⟩ ∧
    after { a := 0x50, p := 0x35 } [0xE9, 0x50] [] = some ⟨{ pc := 0x0202, p := 0x37 }, [], .ok⟩ ∧
    after { a := 0x10, p := 0x3D } [0xE9, 0x01] [] =
      some ⟨{ a := 0x0F, pc := 0x0202, p := 0x3D }, [], .ok⟩ := by decide

/-- 95_test_vectors.md AL-18, AL-19, AL-20. -/
theorem test_cmp :
    after {} [0xC9, 0x01] [] = some ⟨{ pc := 0x0202, p := 0xB4 }, [], .ok⟩ ∧
    after { a := 0x80 } [0xC9, 0x00] [] = some ⟨{ a := 0x80, pc := 0x0202, p := 0xB5 }, [], .ok⟩ ∧
    after { a := 0x42, p := 0x74 } [0xC9, 0x42] [] =
      some ⟨{ a := 0x42, pc := 0x0202, p := 0x77 }, [], .ok⟩ := by decide

/-- 95_test_vectors.md AL-21. -/
theorem test_cpx :
    after { x := 0x01 } [0xE0, 0xFF] [] = some ⟨{ x := 0x01, pc := 0x0202 }, [], .ok⟩ := by decide

/-- 95_test_vectors.md AL-22. -/
theorem test_cpy :
    after { y := 0x10 } [0xC4, 0x10] [(0x0010, 0x10)] =
      some ⟨{ y := 0x10, pc := 0x0202, p := 0x37 }, [], .ok⟩ := by decide

/-- 95_test_vectors.md IS-1, IS-2. -/
theorem test_inc :
    after {} [0xE6, 0x10] [(0x0010, 0xFF)] = some ⟨{ pc := 0x0202, p := 0x36 }, [(0x0010, 0x00)], .ok⟩ ∧
    after { x := 0x01, p := 0x35 } [0xFE, 0xFF, 0x12] [(0x1300, 0x7F)] =
      some ⟨{ x := 0x01, pc := 0x0203, p := 0xB5 }, [(0x1300, 0x80)], .ok⟩ := by decide

/-- 95_test_vectors.md IS-3, IS-4. -/
theorem test_dec :
    after {} [0xC6, 0x10] [(0x0010, 0x00)] = some ⟨{ pc := 0x0202, p := 0xB4 }, [(0x0010, 0xFF)], .ok⟩ ∧
    after { x := 0x02 } [0xD6, 0xFF] [(0x0001, 0x01)] =
      some ⟨{ x := 0x02, pc := 0x0202, p := 0x36 }, [(0x0001, 0x00)], .ok⟩ := by decide

/-- 95_test_vectors.md IS-5. -/
theorem test_inx :
    after { x := 0xFF } [0xE8] [] = some ⟨{ pc := 0x0201, p := 0x36 }, [], .ok⟩ := by decide

/-- 95_test_vectors.md IS-6. -/
theorem test_iny :
    after { y := 0x7F } [0xC8] [] = some ⟨{ y := 0x80, pc := 0x0201, p := 0xB4 }, [], .ok⟩ := by decide

/-- 95_test_vectors.md IS-7. -/
theorem test_dex :
    after {} [0xCA] [] = some ⟨{ x := 0xFF, pc := 0x0201, p := 0xB4 }, [], .ok⟩ := by decide

/-- 95_test_vectors.md IS-8. -/
theorem test_dey :
    after { y := 0x01 } [0x88] [] = some ⟨{ pc := 0x0201, p := 0x36 }, [], .ok⟩ := by decide

/-- 95_test_vectors.md IS-9, IS-10. -/
theorem test_asl :
    after { a := 0x81 } [0x0A] [] = some ⟨{ a := 0x02, pc := 0x0201, p := 0x35 }, [], .ok⟩ ∧
    after { p := 0x35 } [0x06, 0x10] [(0x0010, 0x40)] =
      some ⟨{ pc := 0x0202, p := 0xB4 }, [(0x0010, 0x80)], .ok⟩ := by decide

/-- 95_test_vectors.md IS-11, IS-12. -/
theorem test_lsr :
    after { a := 0x01 } [0x4A] [] = some ⟨{ pc := 0x0201, p := 0x37 }, [], .ok⟩ ∧
    after { p := 0xB4 } [0x4E, 0x00, 0x30] [(0x3000, 0xFF)] =
      some ⟨{ pc := 0x0203, p := 0x35 }, [(0x3000, 0x7F)], .ok⟩ := by decide

/-- 95_test_vectors.md IS-13, IS-14. -/
theorem test_rol :
    after { a := 0x80 } [0x2A] [] = some ⟨{ pc := 0x0201, p := 0x37 }, [], .ok⟩ ∧
    after { p := 0x35 } [0x26, 0x10] [(0x0010, 0x40)] =
      some ⟨{ pc := 0x0202, p := 0xB4 }, [(0x0010, 0x81)], .ok⟩ := by decide

/-- 95_test_vectors.md IS-15, IS-16. -/
theorem test_ror :
    after { a := 0x01, p := 0x35 } [0x6A] [] = some ⟨{ a := 0x80, pc := 0x0201, p := 0xB5 }, [], .ok⟩ ∧
    after { x := 0x01 } [0x76, 0x0F] [(0x0010, 0x02)] =
      some ⟨{ x := 0x01, pc := 0x0202 }, [(0x0010, 0x01)], .ok⟩ := by decide

/-- 95_test_vectors.md BF-1, BF-2, L1-7. -/
theorem test_beq :
    after { p := 0x36 } [0xF0, 0x05] [] = some ⟨{ pc := 0x0207, p := 0x36 }, [], .ok⟩ ∧
    after {} [0xF0, 0x05] [] = some ⟨{ pc := 0x0202 }, [], .ok⟩ ∧
    after { pc := 0x00FD, p := 0x36 } [0xF0, 0x01] [] = some ⟨{ pc := 0x0100, p := 0x36 }, [], .ok⟩ ∧
    after { pc := 0x00FD } [0xF0, 0x01] [] = some ⟨{ pc := 0x00FF }, [], .ok⟩ := by decide

/-- 95_test_vectors.md BF-3, L1-7. -/
theorem test_bne :
    after {} [0xD0, 0xFE] [] = some ⟨{}, [], .ok⟩ ∧
    after { pc := 0x00FD } [0xD0, 0x01] [] = some ⟨{ pc := 0x0100 }, [], .ok⟩ ∧
    after { pc := 0x00FD, p := 0x36 } [0xD0, 0x01] [] = some ⟨{ pc := 0x00FF, p := 0x36 }, [], .ok⟩ := by decide

/-- 95_test_vectors.md BF-4, L1-7. -/
theorem test_bcc :
    after { pc := 0x0280 } [0x90, 0x80] [] = some ⟨{ pc := 0x0202 }, [], .ok⟩ ∧
    after { pc := 0x00FD } [0x90, 0x01] [] = some ⟨{ pc := 0x0100 }, [], .ok⟩ ∧
    after { pc := 0x00FD, p := 0x35 } [0x90, 0x01] [] = some ⟨{ pc := 0x00FF, p := 0x35 }, [], .ok⟩ := by decide

/-- 95_test_vectors.md BF-5, BF-12, L1-7. -/
theorem test_bcs :
    after { p := 0x35 } [0xB0, 0x7F] [] = some ⟨{ pc := 0x0281, p := 0x35 }, [], .ok⟩ ∧
    after { pc := 0xFFF0, p := 0x35 } [0xB0, 0x7F] [] = some ⟨{ pc := 0x0071, p := 0x35 }, [], .ok⟩ ∧
    after { pc := 0x00FD, p := 0x35 } [0xB0, 0x01] [] = some ⟨{ pc := 0x0100, p := 0x35 }, [], .ok⟩ ∧
    after { pc := 0x00FD } [0xB0, 0x01] [] = some ⟨{ pc := 0x00FF }, [], .ok⟩ := by decide

/-- 95_test_vectors.md BF-6, L1-7. -/
theorem test_bmi :
    after { pc := 0x00FD, p := 0xB4 } [0x30, 0x01] [] = some ⟨{ pc := 0x0100, p := 0xB4 }, [], .ok⟩ ∧
    after { pc := 0x00FD, p := 0xB4 } [0x30, 0x01] [] = some ⟨{ pc := 0x0100, p := 0xB4 }, [], .ok⟩ ∧
    after { pc := 0x00FD } [0x30, 0x01] [] = some ⟨{ pc := 0x00FF }, [], .ok⟩ := by decide

/-- 95_test_vectors.md BF-7, BF-8, L1-7. -/
theorem test_bpl :
    after { pc := 0x0100 } [0x10, 0xF0] [] = some ⟨{ pc := 0x00F2 }, [], .ok⟩ ∧
    after { pc := 0x0100, p := 0xB4 } [0x10, 0xF0] [] = some ⟨{ pc := 0x0102, p := 0xB4 }, [], .ok⟩ ∧
    after { pc := 0x00FD } [0x10, 0x01] [] = some ⟨{ pc := 0x0100 }, [], .ok⟩ ∧
    after { pc := 0x00FD, p := 0xB4 } [0x10, 0x01] [] = some ⟨{ pc := 0x00FF, p := 0xB4 }, [], .ok⟩ := by decide

/-- 95_test_vectors.md BF-9, L1-7. -/
theorem test_bvc :
    after {} [0x50, 0x10] [] = some ⟨{ pc := 0x0212 }, [], .ok⟩ ∧
    after { pc := 0x00FD } [0x50, 0x01] [] = some ⟨{ pc := 0x0100 }, [], .ok⟩ ∧
    after { pc := 0x00FD, p := 0x74 } [0x50, 0x01] [] = some ⟨{ pc := 0x00FF, p := 0x74 }, [], .ok⟩ := by decide

/-- 95_test_vectors.md BF-10, BF-11, L1-7. -/
theorem test_bvs :
    after {} [0x70, 0x10] [] = some ⟨{ pc := 0x0202 }, [], .ok⟩ ∧
    after { p := 0x74 } [0x70, 0xF0] [] = some ⟨{ pc := 0x01F2, p := 0x74 }, [], .ok⟩ ∧
    after { pc := 0x00FD, p := 0x74 } [0x70, 0x01] [] = some ⟨{ pc := 0x0100, p := 0x74 }, [], .ok⟩ ∧
    after { pc := 0x00FD } [0x70, 0x01] [] = some ⟨{ pc := 0x00FF }, [], .ok⟩ := by decide

/-- 95_test_vectors.md BF-13. -/
theorem test_clc :
    after { p := 0x35 } [0x18] [] = some ⟨{ pc := 0x0201 }, [], .ok⟩ := by decide

/-- 95_test_vectors.md BF-14. -/
theorem test_sec :
    after {} [0x38] [] = some ⟨{ pc := 0x0201, p := 0x35 }, [], .ok⟩ := by decide

/-- 95_test_vectors.md BF-15. -/
theorem test_cld :
    after { p := 0x3C } [0xD8] [] = some ⟨{ pc := 0x0201 }, [], .ok⟩ := by decide

/-- 95_test_vectors.md BF-16. -/
theorem test_sed :
    after {} [0xF8] [] = some ⟨{ pc := 0x0201, p := 0x3C }, [], .ok⟩ := by decide

/-- 95_test_vectors.md BF-17. -/
theorem test_cli :
    after {} [0x58] [] = some ⟨{ pc := 0x0201, p := 0x30 }, [], .ok⟩ := by decide

/-- 95_test_vectors.md BF-18. -/
theorem test_sei :
    after { p := 0x30 } [0x78] [] = some ⟨{ pc := 0x0201 }, [], .ok⟩ := by decide

/-- 95_test_vectors.md BF-19. -/
theorem test_clv :
    after { p := 0x74 } [0xB8] [] = some ⟨{ pc := 0x0201 }, [], .ok⟩ := by decide

/-- 95_test_vectors.md JS-1, JS-2, JS-3. -/
theorem test_jmp :
    after {} [0x4C, 0x34, 0x12] [] = some ⟨{ pc := 0x1234 }, [], .ok⟩ ∧
    after {} [0x6C, 0x00, 0x03] [(0x0300, 0x00), (0x0301, 0x80)] = some ⟨{ pc := 0x8000 }, [], .ok⟩ ∧
    after {} [0x6C, 0xFF, 0x10] [(0x1000, 0x50), (0x10FF, 0x00), (0x1100, 0x40)] =
      some ⟨{ pc := 0x4000 }, [], .ok⟩ := by decide

/-- 95_test_vectors.md JS-5, JS-6. -/
theorem test_jsr :
    after { pc := 0x0302 } [0x20, 0x10, 0x03] [] =
      some ⟨{ sp := 0xFD, pc := 0x0310 }, [(0x01FF, 0x03), (0x01FE, 0x04)], .ok⟩ ∧
    after { sp := 0x00 } [0x20, 0x00, 0x40] [] =
      some ⟨{ sp := 0xFE, pc := 0x4000 }, [(0x0100, 0x02), (0x01FF, 0x02)], .ok⟩ := by decide

/-- 95_test_vectors.md JS-7, JS-8. -/
theorem test_rts :
    after { sp := 0xFD } [0x60] [(0x01FE, 0x04), (0x01FF, 0x03)] = some ⟨{ pc := 0x0305 }, [], .ok⟩ ∧
    after { sp := 0xFD } [0x60] [(0x01FE, 0xFF), (0x01FF, 0xFF)] = some ⟨{ pc := 0x0000 }, [], .ok⟩ := by decide

/-- 95_test_vectors.md JS-9, JS-11. -/
theorem test_brk :
    after { p := 0x00 } [0x00] [(0xFFFE, 0x00), (0xFFFF, 0x04)] =
      some ⟨{ sp := 0xFC, pc := 0x0400 }, [(0x01FF, 0x02), (0x01FE, 0x02), (0x01FD, 0x30)], .ok⟩ ∧
    after { p := 0xC5 } [0x00] [(0xFFFE, 0x00), (0xFFFF, 0x04)] =
      some ⟨{ sp := 0xFC, pc := 0x0400, p := 0xF5 }, [(0x01FF, 0x02), (0x01FE, 0x02), (0x01FD, 0xF5)], .ok⟩ := by decide

/-- 95_test_vectors.md JS-12, JS-13. -/
theorem test_rti :
    after { sp := 0xFC } [0x40] [(0x01FD, 0x30), (0x01FE, 0x02), (0x01FF, 0x02)] =
      some ⟨{ pc := 0x0202, p := 0x30 }, [], .ok⟩ ∧
    after { sp := 0xFC } [0x40] [(0x01FD, 0xC3), (0x01FE, 0x34), (0x01FF, 0x12)] =
      some ⟨{ pc := 0x1234, p := 0xC3 }, [], .ok⟩ := by decide

/-- 95_test_vectors.md JS-14. -/
theorem test_nop :
    after {} [0xEA] [] = some ⟨{ pc := 0x0201 }, [], .ok⟩ := by decide

/-- 95_test_vectors.md TS-1. -/
theorem test_tax :
    after { a := 0x80 } [0xAA] [] = some ⟨{ a := 0x80, x := 0x80, pc := 0x0201, p := 0xB4 }, [], .ok⟩ := by decide

/-- 95_test_vectors.md TS-2. -/
theorem test_tay :
    after { y := 0x05 } [0xA8] [] = some ⟨{ pc := 0x0201, p := 0x36 }, [], .ok⟩ := by decide

/-- 95_test_vectors.md TS-3. -/
theorem test_txa :
    after { x := 0x7F, p := 0xB6 } [0x8A] [] = some ⟨{ a := 0x7F, x := 0x7F, pc := 0x0201 }, [], .ok⟩ := by decide

/-- 95_test_vectors.md TS-4. -/
theorem test_tya :
    after { y := 0xFF } [0x98] [] = some ⟨{ a := 0xFF, y := 0xFF, pc := 0x0201, p := 0xB4 }, [], .ok⟩ := by decide

/-- 95_test_vectors.md TS-5. -/
theorem test_tsx :
    after {} [0xBA] [] = some ⟨{ x := 0xFF, pc := 0x0201, p := 0xB4 }, [], .ok⟩ := by decide

/-- 95_test_vectors.md TS-6. -/
theorem test_txs :
    after { p := 0xB4 } [0x9A] [] = some ⟨{ sp := 0x00, pc := 0x0201, p := 0xB4 }, [], .ok⟩ := by decide

/-- 95_test_vectors.md TS-7, TS-8. -/
theorem test_pha :
    after { a := 0x42 } [0x48] [] = some ⟨{ a := 0x42, sp := 0xFE, pc := 0x0201 }, [(0x01FF, 0x42)], .ok⟩ ∧
    after { a := 0x42, sp := 0x00 } [0x48] [] = some ⟨{ a := 0x42, pc := 0x0201 }, [(0x0100, 0x42)], .ok⟩ := by decide

/-- 95_test_vectors.md TS-9, TS-10. -/
theorem test_php :
    after { p := 0x00 } [0x08] [] = some ⟨{ sp := 0xFE, pc := 0x0201, p := 0x30 }, [(0x01FF, 0x30)], .ok⟩ ∧
    after { p := 0xC3 } [0x08] [] = some ⟨{ sp := 0xFE, pc := 0x0201, p := 0xF3 }, [(0x01FF, 0xF3)], .ok⟩ := by decide

/-- 95_test_vectors.md TS-12, TS-13. -/
theorem test_pla :
    after { sp := 0xFE } [0x68] [(0x01FF, 0x80)] = some ⟨{ a := 0x80, pc := 0x0201, p := 0xB4 }, [], .ok⟩ ∧
    after {} [0x68] [(0x0100, 0x00)] = some ⟨{ sp := 0x00, pc := 0x0201, p := 0x36 }, [], .ok⟩ := by decide

/-- 95_test_vectors.md TS-14, TS-15. -/
theorem test_plp :
    after { sp := 0xFE } [0x28] [(0x01FF, 0xFF)] = some ⟨{ pc := 0x0201, p := 0xCF }, [], .ok⟩ ∧
    after { sp := 0xFE } [0x28] [(0x01FF, 0x30)] = some ⟨{ pc := 0x0201, p := 0x00 }, [], .ok⟩ := by decide

/-- 95_test_vectors.md DX-1, DX-2, DX-3. -/
theorem test_illegal :
    after {} [0x02] [] = some ⟨{ pc := 0x0201 }, [], .illegalOpcode 0x02 0x0200⟩ ∧
    after { pc := 0xFFFF } [0xFF] [] = some ⟨{ pc := 0x0000 }, [], .illegalOpcode 0xFF 0xFFFF⟩ ∧
    after { a := 0x11 } [0x89, 0x55] [] =
      some ⟨{ a := 0x11, pc := 0x0201 }, [], .illegalOpcode 0x89 0x0200⟩ := by decide

/-- 95_test_vectors.md, end of section 2.7: DX-1 for each of the 105 illegal bytes. -/
theorem test_every_illegal_byte :
    (illegalBytes.all fun b =>
      decide (after {} [b, 0x55] [] = some ⟨{ pc := 0x0201 }, [], .illegalOpcode b 0x0200⟩)) = true := by decide

/-- 95_test_vectors.md DX-5, first step: a store into the next instruction's operand byte, and the fetch of that
instruction reads it (20_memory.md R79). -/
theorem test_store_into_code :
    (nextState? (step (start { a := 0x77 } [0x8D, 0x04, 0x02, 0xA9, 0x00] []))).map State.codeBytes =
      some [0xA9, 0x77, 0x00] := by decide

/-- What one step from a start state shows under parameters `q`. -/
def afterIn (q : Params) (r : Regs) (code : List Byte) (cells : List (Word × Byte)) : Option Seen :=
  (nextState? (stepIn q (start r code cells))).map State.shown

/-- The parameter variant JS-4: `JMP_IND_PAGE_WRAP` true. -/
theorem test_jmp_ind_page_wrap_variant :
    afterIn { params with jmpIndPageWrap := true } {} [0x6C, 0xFF, 0x10]
        [(0x1000, 0x50), (0x10FF, 0x00), (0x1100, 0x40)] = some ⟨{ pc := 0x5000 }, [], .ok⟩ := by decide

/-- The parameter variant JS-10: `PUSH_SETS_LIVE_BU` false. -/
theorem test_brk_live_bu_variant :
    afterIn { params with pushSetsLiveBU := false } { p := 0x00 } [0x00] [(0xFFFE, 0x00), (0xFFFF, 0x04)] =
      some ⟨{ sp := 0xFC, p := 0x04, pc := 0x0400 }, [(0x01FF, 0x02), (0x01FE, 0x02), (0x01FD, 0x30)], .ok⟩ := by decide

/-- The parameter variant TS-11: `PUSH_SETS_LIVE_BU` false. -/
theorem test_php_live_bu_variant :
    afterIn { params with pushSetsLiveBU := false } { p := 0x00 } [0x08] [] =
      some ⟨{ sp := 0xFE, p := 0x00, pc := 0x0201 }, [(0x01FF, 0x30)], .ok⟩ := by decide

/-- `MEM_MODEL` as the reference's clamping store of 0x1000 bytes (20_memory.md R61): a read beyond it gives 0, a write
beyond it is made on the bus and ignored. -/
theorem test_clamped_memory :
    afterIn { params with mem := clampedRam 0x1000 } { a := 0x11 } [0xAD, 0x00, 0x10] [(0x1000, 0x7F)] =
      some ⟨{ a := 0x00, p := 0x36, pc := 0x0203 }, [], .ok⟩ ∧
    afterIn { params with mem := clampedRam 0x1000 } { a := 0x11 } [0x8D, 0x00, 0x10] [(0x1000, 0x7F)] =
      some ⟨{ a := 0x11, pc := 0x0203 }, [(0x1000, 0x7F)], .ok⟩ ∧
    afterIn { params with mem := clampedRam 0x1000 } { a := 0x11 } [0x8D, 0xFF, 0x0F] [] =
      some ⟨{ a := 0x11, pc := 0x0203 }, [(0x0FFF, 0x11)], .ok⟩ := by decide

/-- A collaborator whose read clears the byte it returns. -/
def clearedByRead : MemModel where
  read m addr := (m.read addr.toNat, m.write addr.toNat 0x00)
  write m addr v := m.write addr.toNat v

/-- `MEM_MODEL` with a side effect: INC reads its byte once (20_memory.md R66, R78), so it writes back 0x80 and not the
0x01 a second read would give. -/
theorem test_memory_with_side_effect :
    afterIn { params with mem := clearedByRead } {} [0xE6, 0x10] [(0x0010, 0x7F)] =
      some ⟨{ p := 0xB4, pc := 0x0202 }, [(0x0010, 0x80)], .ok⟩ := by decide

/-- The order of a read-modify-write instruction's transactions (20_memory.md R78): opcode, operand, one read, one
write. -/
theorem test_bus_order :
    (nextState? (step (start {} [0xE6, 0x10] [(0x0010, 0xFF)]))).map State.bus =
      some [.read 0x0200 0xE6, .read 0x0201 0x10, .read 0x0010 0xFF, .write 0x0010 0x00] := by decide

/-- The status byte of the reset value 0x34 and of a mixed value (10_state.md R26). -/
theorem test_status_byte :
    Flags.initial.toByte = 0x34 ∧ Flags.ofByte 0xC3 = ⟨true, true, false, false, false, false, true, true⟩ := by decide

/-! ### Reset and construction: RS-1 to RS-4 -/

/-- RS-2's start state. -/
def dirty : State := start { a := 0x12, x := 0x34, y := 0x56, sp := 0x10, p := 0xC3, pc := 0x1234 } []
  [(0xFFFC, 0x00), (0xFFFD, 0x80)]

/-- 95_test_vectors.md RS-2 and RS-4. -/
theorem test_reset :
    regsOf dirty.resetCall = { pc := 0x8000 } ∧
    dirty.resetCall.bus = [.read 0xFFFC 0x00, .read 0xFFFD 0x80] ∧
    dirty.resetCall.resetCall = dirty.resetCall := by decide

/-- 95_test_vectors.md RS-3. -/
theorem test_reset_after_construction :
    regsOf (State.boot [(0xFFFC, 0xFF), (0xFFFD, 0xFF)]) = { pc := 0xFFFF } := by decide

/-- 95_test_vectors.md RS-1; nothing is said of PC. -/
theorem test_construction :
    (State.powerOn []).sp = 0xFD ∧ (State.powerOn []).p.toByte = 0x34 ∧ (State.powerOn []).a = 0x00 ∧
    (State.powerOn []).bus = [] := by decide

/-- 10_state.md R38: an accessor truncates to the register's width and changes nothing else. -/
theorem test_accessors :
    (dirty.set .x 0x1FF).get .x = 0xFF ∧ (dirty.set .x 0x1FF).get .y = 0x56 ∧ (dirty.set .flagZ 0).get .p = 0xC1 ∧
    (dirty.set .p 0x00).get .flagN = 0 := by decide


/-! ### Witnesses: the hypotheses of every statement can be met, each clause at a boundary value -/

/-- DecodedBytesAreTheEncoding, OpcodeByteAloneGivesModeAndLength: instructions of 1, 2 and 3 bytes. -/
theorem test_hyp_decode :
    decode [0x00, 0xFF] = .ok (.brk, [0xFF]) ∧ decode [0xA9, 0x00] = .ok (.ldaImm 0x00, []) ∧
    decode [0x6C, 0xFF, 0xFF] = .ok (.jmpInd 0xFFFF, []) := by decide

/-- WellFormedSpellingsAssembleAndDecode: the largest field of each width. -/
theorem test_hyp_spelled :
    Spelled.wellFormed ⟨.lda, .zp, 255⟩ = true ∧ Spelled.wellFormed ⟨.jmp, .ind, 65535⟩ = true ∧
    Spelled.wellFormed ⟨.nop, .imp, 0⟩ = true ∧ Spelled.wellFormed ⟨.asl, .acc, 0⟩ = true := by decide

/-- A three-byte instruction at 0xFFFE, whose last byte is at 0x0000. -/
def wrapped : State := start { x := 0x02, pc := 0xFFFE } [0xFE, 0xFF, 0x12] [(0x1301, 0x7F)]

/-- StepRunsDecodedInstruction, StepMakesItsTransactionsInOrder, StepKeepsInvariant, MemoryIsReachedOnlyThroughTheBus,
SequentialInstructionsAdvancePC, EveryStepCompletesWithOneOfTwoResults (first case): a step that wraps PC and writes
memory. -/
theorem test_hyp_step :
    decode wrapped.codeBytes = .ok (.incAbsx 0x12FF, []) ∧ wrapped.Inv ∧ lookup (wrapped.byteAt wrapped.pc) ≠ none ∧
    Operation.setsPC .inc = false ∧ ∃ t, step wrapped = .next t := ⟨by decide, by decide, by decide, by decide, _, rfl⟩

/-- IllegalOpcodeIsReportedAndSkipped, EveryStepCompletesWithOneOfTwoResults (second case): an illegal byte at 0xFFFF. -/
theorem test_hyp_illegal :
    let s := start { pc := 0xFFFF } [0xFF] []
    s.byteAt s.pc ∈ illegalBytes ∧ lookup (s.byteAt s.pc) = none := by decide

/-- InvariantHoldsAtReset: a canonical memory whose last cell is at the top. -/
theorem test_hyp_memory : Memory.wf [(0, 1), (0xFFFF, 0xFF)] = true := by decide

/-- OnlyListedInstructionsWriteEachRegister: each register changes somewhere, A by a read and by an Accumulator form. -/
theorem test_hyp_register_writes :
    (∃ t, exec (.ldaImm 0xFF) (start {} [] []) = .next t ∧ t.a ≠ (start {} [] []).a) ∧
    (∃ t, exec .rorAcc (start { p := 0x35 } [] []) = .next t ∧ t.a ≠ (start { p := 0x35 } [] []).a) ∧
    (∃ t, exec .inx (start {} [] []) = .next t ∧ t.x ≠ (start {} [] []).x) ∧
    (∃ t, exec .dey (start {} [] []) = .next t ∧ t.y ≠ (start {} [] []).y) ∧
    (∃ t, exec .txs (start {} [] []) = .next t ∧ t.sp ≠ (start {} [] []).sp) ∧
    (∃ t, exec .rti (start {} [] []) = .next t ∧ t.pc ≠ (start {} [] []).pc) :=
  ⟨⟨_, rfl, by decide⟩, ⟨_, rfl, by decide⟩, ⟨_, rfl, by decide⟩, ⟨_, rfl, by decide⟩, ⟨_, rfl, by decide⟩,
   ⟨_, rfl, by decide⟩⟩

/-- OnlyListedInstructionsWriteEachFlag: each flag changes somewhere. -/
theorem test_hyp_flag_writes :
    (∃ t, exec .sec (start {} [] []) = .next t ∧ t.p.c ≠ (start {} [] []).p.c) ∧
    (∃ t, exec .tax (start {} [] []) = .next t ∧ t.p.z ≠ (start {} [] []).p.z) ∧
    (∃ t, exec .tsx (start {} [] []) = .next t ∧ t.p.n ≠ (start {} [] []).p.n) ∧
    (∃ t, exec .cli (start {} [] []) = .next t ∧ t.p.i ≠ (start {} [] []).p.i) ∧
    (∃ t, exec .sed (start {} [] []) = .next t ∧ t.p.d ≠ (start {} [] []).p.d) ∧
    (∃ t, exec .plp (start {} [] []) = .next t ∧ t.p.b ≠ (start {} [] []).p.b) ∧
    (∃ t, exec .php (start { p := 0x00 } [] []) = .next t ∧ t.p.u ≠ (start { p := 0x00 } [] []).p.u) ∧
    (∃ t, exec .clv (start { p := 0x74 } [] []) = .next t ∧ t.p.v ≠ (start { p := 0x74 } [] []).p.v) :=
  ⟨⟨_, rfl, by decide⟩, ⟨_, rfl, by decide⟩, ⟨_, rfl, by decide⟩, ⟨_, rfl, by decide⟩, ⟨_, rfl, by decide⟩,
   ⟨_, rfl, by decide⟩, ⟨_, rfl, by decide⟩, ⟨_, rfl, by decide⟩⟩

/-- InertFlagsSteerNothing: ADC meets the hypothesis of each clause. -/
theorem test_hyp_inert_flags :
    (Instr.adcImm 0x01).operation ∉ [Operation.cli, .sei, .php, .brk, .plp, .rti] ∧
    (Instr.adcImm 0x01).operation ∉ [Operation.cld, .sed, .php, .brk, .plp, .rti] ∧
    (Instr.adcImm 0x01).operation ∉ [Operation.php, .brk, .plp, .rti] := by decide

/-- OtherInstructionsLeaveMemory: a shift of A, and an instruction that reads memory. -/
theorem test_hyp_no_store :
    (Instr.aslAcc.writesMemory = false ∧ ∃ t, exec .aslAcc wrapped = .next t) ∧
    ((Instr.ldaIndy 0xFF).writesMemory = false ∧ ∃ t, exec (.ldaIndy 0xFF) wrapped = .next t) :=
  ⟨⟨rfl, _, rfl⟩, rfl, _, rfl⟩

/-- StoresTouchOnlyTheirAddress: a store at 0xFFFF and a read-modify-write at the wrapped 0x0001, with an address beside
each. -/
theorem test_hyp_stores :
    ((Instr.staAbs 0xFFFF).operand = .addr (.abs 0xFFFF) ∧ wrapped.mem.wf = true ∧ Operation.isStore .sta = true ∧
      (∃ t, exec (.staAbs 0xFFFF) wrapped = .next t) ∧ (AddrMode.abs 0xFFFF).ea wrapped = 0xFFFF ∧
      (0x0000 : Word) ≠ 0xFFFF) ∧
    ((Instr.rolZpx 0xFF).operand = .addr (.zpx 0xFF) ∧ Operation.isModify .rol = true ∧
      (∃ t, exec (.rolZpx 0xFF) wrapped = .next t) ∧ (AddrMode.zpx 0xFF).ea wrapped = 0x0001 ∧
      (0x0101 : Word) ≠ 0x0001) :=
  ⟨⟨rfl, by decide, rfl, ⟨_, rfl⟩, by decide, by decide⟩, rfl, rfl, ⟨_, rfl⟩, by decide, by decide⟩

/-- PushesTouchOnlyTheirStackSlots: each pushing operation at SP = 0x00, where the slots wrap inside page 1, and an
address beside them. -/
theorem test_hyp_pushes :
    let s := start { sp := 0x00 } [] []
    (Operation.isPush .pha = true ∧ (∃ t, exec .pha s = .next t) ∧ pushSlots .pha s.sp = [0x0100]) ∧
    (Operation.isPush .php = true ∧ (∃ t, exec .php s = .next t) ∧ pushSlots .php s.sp = [0x0100]) ∧
    (Operation.isPush .jsr = true ∧ (∃ t, exec (.jsrAbs 0x4000) s = .next t) ∧
      pushSlots .jsr s.sp = [0x0100, 0x01FF]) ∧
    (Operation.isPush .brk = true ∧ (∃ t, exec .brk s = .next t) ∧
      pushSlots .brk s.sp = [0x0100, 0x01FF, 0x01FE]) ∧ (0x0200 : Word) ∉ pushSlots .brk s.sp :=
  ⟨⟨rfl, ⟨_, rfl⟩, by decide⟩, ⟨rfl, ⟨_, rfl⟩, by decide⟩, ⟨rfl, ⟨_, rfl⟩, by decide⟩, ⟨rfl, ⟨_, rfl⟩, by decide⟩,
   by decide⟩

/-- CanonicalMemoriesThatReadAlikeAreEqual: the same bytes written in two orders. -/
theorem test_hyp_canonical :
    let m : Memory := Memory.write (Memory.write [] 0x0010 0x01) 0xFFFF 0x02
    let m' : Memory := Memory.write (Memory.write [] 0xFFFF 0x02) 0x0010 0x01
    m.wf = true ∧ m'.wf = true ∧ ∀ addr : Word, m.read addr.toNat = m'.read addr.toNat :=
  ⟨by decide, by decide, fun _ => rfl⟩

/-- AdcThenSbcWithOtherCarryRestoresA: the third boundary case of L1-4, with two forms that read the same byte. -/
theorem test_hyp_adc_sbc :
    let s := start { a := 0x7F } [] [(0x0010, 0x01)]
    (Instr.adcZp 0x10).operation = .adc ∧ (Instr.adcZp 0x10).operand = .addr (.zp 0x10) ∧
    (Instr.sbcAbs 0x0010).operation = .sbc ∧ (Instr.sbcAbs 0x0010).operand = .addr (.abs 0x0010) ∧ s.p.c = false ∧
    ∃ t, exec (.adcZp 0x10) s = .next t ∧
      (AddrMode.abs 0x0010).value { t with p := { t.p with c := true } } = (AddrMode.zp 0x10).value s :=
  ⟨rfl, rfl, rfl, rfl, by decide, _, rfl, by decide⟩

/-- EffectiveAddressOfEachMode, OperandValueIsTheByteAtItsAddress: each mode with an address in the table, at the value
where its sum or pointer wraps or does not, from 40_dispatch_addressing.md R129-R139. -/
theorem test_hyp_addresses :
    let at' (r : Regs) (code : List Byte) (mode : Mode) := (start r code [(0x0100, 0x12), (0x00FF, 0x34)]).tableAddress mode
    at' { pc := 0xFFFF } [0xA9, 0x05] .imm = some 0x0000 ∧ at' {} [0xA5, 0xFF] .zp = some 0x00FF ∧
    at' { x := 0x01 } [0xB5, 0xFF] .zpx = some 0x0000 ∧ at' { y := 0x20 } [0xB6, 0xF0] .zpy = some 0x0010 ∧
    at' {} [0xAD, 0xFF, 0xFF] .abs = some 0xFFFF ∧ at' { x := 0x01 } [0xBD, 0xFF, 0x12] .absx = some 0x1300 ∧
    at' { y := 0x20 } [0xB9, 0xF0, 0xFF] .absy = some 0x0010 ∧ at' { x := 0x01 } [0xA1, 0xFE] .indx = some 0x1234 ∧
    at' { y := 0x01 } [0xB1, 0xFF] .indy = some 0x1235 ∧ at' { pc := 0x0280 } [0x90, 0x80] .rel = some 0x0202 ∧
    at' { pc := 0xFFF0 } [0xB0, 0x7F] .rel = some 0x0071 ∧ at' {} [0x6C, 0xFF, 0x10] .ind = none := by decide

/-- The same statements' other hypotheses: such a state decodes to an instruction with that operand, in Immediate, Zero
Page,Y and Relative mode. -/
theorem test_hyp_address_forms :
    (decode (start { pc := 0xFFFF } [0xA9, 0x05] []).codeBytes = .ok (.ldaImm 0x05, [0x00]) ∧
      (Instr.ldaImm 0x05).operand = .addr (.imm 0x05) ∧ (Instr.ldaImm 0x05).mode = .imm) ∧
    (decode (start {} [0xB6, 0xF0] []).codeBytes = .ok (.ldxZpy 0xF0, [0x00]) ∧
      (Instr.ldxZpy 0xF0).operand = .addr (.zpy 0xF0) ∧ (Instr.ldxZpy 0xF0).mode = .zpy) ∧
    (decode (start {} [0x90, 0x80] []).codeBytes = .ok (.bcc 0x80, [0x00]) ∧
      (Instr.bcc 0x80).operand = .addr (.rel 0x80) ∧ (Instr.bcc 0x80).mode = .rel) := by decide

/-- IndirectPointerUnderBothSettings: a pointer that does not end in 0xFF, and one that does. -/
theorem test_hyp_pointer : (0x10FE : Word).toNat % 256 ≠ 0xFF ∧ (0x10FF : Word).toNat % 256 = 0xFF := by decide

/-- The statements about operations with an address operand: an instruction for each of their clauses. -/
theorem test_hyp_address_operands :
    (([.ldaIndx 0xFF, .ldxZpy 0xFF, .ldyAbsx 0xFFFF, .staIndy 0xFF, .stxZpy 0xFF, .styZpx 0xFF, .andImm 0x00,
       .oraAbsy 0xFFFF, .eorIndx 0xFF, .bitAbs 0xFFFF, .adcIndy 0xFF, .sbcImm 0xFF, .cmpAbsx 0xFFFF, .cpxImm 0x00,
       .cpyAbs 0xFFFF, .incAbsx 0xFFFF, .decZpx 0xFF, .aslAbs 0xFFFF, .lsrZp 0x00, .rolZpx 0xFF, .rorAbsx 0xFFFF,
       .bcc 0x80, .bcs 0x7F, .beq 0x00, .bne 0xFE, .bmi 0x80, .bpl 0x7F, .bvc 0x00, .bvs 0xFF] : List Instr).map
        fun i => (i.operation, match i.operand with | .addr _ => true | _ => false)) =
      [.lda, .ldx, .ldy, .sta, .stx, .sty, .and, .ora, .eor, .bit, .adc, .sbc, .cmp, .cpx, .cpy, .inc, .dec, .asl, .lsr,
       .rol, .ror, .bcc, .bcs, .beq, .bne, .bmi, .bpl, .bvc, .bvs].map fun op => (op, true) := by decide

/-- BranchesLoadTargetOnCondition: the hypothesis in its own form. -/
theorem test_hyp_branch_operand : (Instr.bcc 0x80).operand = .addr (.rel 0x80) := rfl

/-- RegisterIncrementsAndDecrements: the bytes it speaks of, at the wrap. -/
theorem test_hyp_register_steps :
    let s := start { x := 0xFF, y := 0xFF } [] []
    let t := start {} [] []
    (0x00 : Byte).toNat = (s.x.toNat + 1) % 256 ∧ (0x00 : Byte).toNat = (s.y.toNat + 1) % 256 ∧
    (0xFF : Byte).toNat = (t.x.toNat + 255) % 256 ∧ (0xFF : Byte).toNat = (t.y.toNat + 255) % 256 := by decide

/-- AccumulatorShiftsAndRotates: the bytes it speaks of, for A = 0x81 and C = 1. -/
theorem test_hyp_accumulator_shifts :
    let s := start { a := 0x81, p := 0x35 } [] []
    (0x02 : Byte).toNat = 2 * s.a.toNat % 256 ∧ (0x40 : Byte).toNat = s.a.toNat / 2 ∧
    (0x03 : Byte).toNat = 2 * s.a.toNat % 256 + s.p.c.toNat ∧
    (0xC0 : Byte).toNat = s.a.toNat / 2 + 128 * s.p.c.toNat := by decide

/-- MemoryShiftsAndRotates: the same for the byte 0x81 at the wrapped address 0x0001. -/
theorem test_hyp_memory_shifts :
    let s := start { x := 0x02, p := 0x35 } [] [(0x0001, 0x81)]
    let old := s.byteAt ((AddrMode.zpx 0xFF).ea s)
    (Instr.aslZpx 0xFF).operand = .addr (.zpx 0xFF) ∧ (Instr.lsrZpx 0xFF).operand = .addr (.zpx 0xFF) ∧
    (Instr.rolZpx 0xFF).operand = .addr (.zpx 0xFF) ∧ (Instr.rorZpx 0xFF).operand = .addr (.zpx 0xFF) ∧
    (0x02 : Byte).toNat = 2 * old.toNat % 256 ∧ (0x40 : Byte).toNat = old.toNat / 2 ∧
    (0x03 : Byte).toNat = 2 * old.toNat % 256 + s.p.c.toNat ∧
    (0xC0 : Byte).toNat = old.toNat / 2 + 128 * s.p.c.toNat := by decide

/-- JsrPushesReturnAddressAndJumps, BrkEntersTheTrap, PushInstructionsPush: the pushed bytes, where PC - 1 and PC + 1
wrap. -/
theorem test_hyp_pushed_bytes :
    (0xFF : Byte) ++ (0xFF : Byte) = (start { pc := 0x0000 } [] []).pc - 1 ∧
    (0x00 : Byte) ++ (0x00 : Byte) = (start { pc := 0xFFFF } [] []).pc + 1 ∧
    (0xF3 : Byte) = ({ (start { p := 0xC3 } [] []).p with b := true, u := true } : Flags).toByte := by decide

/-- NopHasNoEffect, its second clause: a NOP at 0xFFFF. -/
theorem test_hyp_nop : (start { pc := 0xFFFF } [0xEA] []).byteAt 0xFFFF = 0xEA := by decide

/-- RtsAfterJsrReturns at SP = 0x00: the state JSR left with A, X, P, PC and the bus changed since. -/
theorem test_hyp_rts_after_jsr :
    let s := start { sp := 0x00 } [] []
    s.mem.wf = true ∧ ∃ t : State, exec (.jsrAbs 0x4000) s = .next t ∧
      let r : State := { t with a := 0x42, x := 0x01, p := Flags.ofByte 0xC3, pc := 0x4005, bus := [] }
      r.sp = t.sp ∧ ∀ addr ∈ pushSlots .jsr s.sp, r.byteAt addr = t.byteAt addr :=
  ⟨by decide, _, rfl, rfl, fun _ _ => rfl⟩

/-- RtiAfterBrkRestores at SP = 0x00: the state BRK left with A, X, P, PC and the bus changed since. -/
theorem test_hyp_rti_after_brk :
    let s := start { sp := 0x00, p := 0xC3 } [] []
    s.mem.wf = true ∧ ∃ t : State, exec .brk s = .next t ∧
      let r : State := { t with a := 0x42, x := 0x01, p := Flags.ofByte 0x00, pc := 0x0401, bus := [] }
      r.sp = t.sp ∧ ∀ addr ∈ pushSlots .brk s.sp, r.byteAt addr = t.byteAt addr :=
  ⟨by decide, _, rfl, rfl, fun _ _ => rfl⟩

/-- PlaAfterPhaRestoresA at SP = 0x00. -/
theorem test_hyp_pla_after_pha :
    (start { a := 0x80, sp := 0x00 } [] []).mem.wf = true ∧ ∃ t, exec .pha (start { a := 0x80, sp := 0x00 } [] []) = .next t :=
  ⟨by decide, _, rfl⟩

/-- HostAccessorsReadAndWriteOneRegister: names that do not overlap; P and a flag do. -/
theorem test_hyp_accessors :
    HostReg.overlaps .p .a = false ∧ HostReg.overlaps .flagC .flagZ = false ∧ HostReg.overlaps .p .flagN = true := by
  decide

end Sys2Proof.Tests
end

section
/-! The status byte, construction and `reset()` (spec/10_state.md R26, R40, R41): what the packed byte holds, what
`State.resetCall` answers as a state, and the obligations that say so. -/

namespace Sys2Proof.Machine

/-! ### The packed status byte -/

/-- Appending one flag's bit is `BitVec.concat`, so the library's lemmas about it say what the packed byte holds. -/
theorem Flags.toByte_eq_concat (f : Flags) :
    f.toByte =
      (((((((BitVec.ofBool f.n).concat f.v).concat f.u).concat f.b).concat f.d).concat f.i).concat f.z).concat f.c :=
  rfl

/-- The weights of R26. -/
theorem Flags.toByte_toNat (f : Flags) :
    f.toByte.toNat = 128 * f.n.toNat + 64 * f.v.toNat + 32 * f.u.toNat + 16 * f.b.toNat + 8 * f.d.toNat +
      4 * f.i.toNat + 2 * f.z.toNat + f.c.toNat := by
  simp only [Flags.toByte_eq_concat, BitVec.toNat_concat, BitVec.toNat_ofBool]
  omega

@[simp] theorem Flags.ofByte_toByte (f : Flags) : Flags.ofByte f.toByte = f := by
  simp [Flags.ofByte, Flags.toByte_eq_concat]

/-- Bit by bit: the packed byte holds at each position the flag that was read from there. -/
@[simp] theorem Flags.toByte_ofByte (v : Byte) : (Flags.ofByte v).toByte = v := by
  apply BitVec.eq_of_getLsbD_eq
  intro k hk
  rw [Flags.toByte_eq_concat]
  interval_cases k <;> simp [Flags.ofByte]

@[simp] theorem Flags.initial_toByte : Flags.initial.toByte = 0x34 := rfl

/-! ### The reset vector and `reset()` -/

/-- A word is its low byte plus 256 times its high byte (20_memory.md R63). -/
theorem joinBytes_toNat (lo hi : Byte) : (joinBytes lo hi).toNat = lo.toNat + 256 * hi.toNat := by
  rw [joinBytes, BitVec.toNat_append, ← Nat.shiftLeft_add_eq_or_of_lt lo.isLt, Nat.shiftLeft_eq]
  omega

/-- Everything `reset()` does (70_reset_and_hazards.md R361, R362). -/
theorem State.resetCall_eq (s : State) :
    s.resetCall =
      { s with
        a := 0x00, x := 0x00, y := 0x00, sp := 0xFF, p := Flags.initial, lastResult := .ok
        pc := joinBytes (s.byteAt Config.resetVector) (s.byteAt (Config.resetVector + 1))
        bus := [s.readAt Config.resetVector, s.readAt (Config.resetVector + 1)] } := by
  simp [State.resetCall, State.memRead16_eq, State.beginStep, State.writePC, State.byteAt, State.readAt]

end Sys2Proof.Machine

open Sys2Proof Sys2Proof.Machine

/-- Settles O25: the weights are those of nested `BitVec.concat`, and so are the bits that make the conversions
inverse; the bits of `Flags.ofByte` are its definition. -/
theorem packedStatusByteHoldsEachFlag : Obligations.PackedStatusByteHoldsEachFlag :=
  ⟨Flags.toByte_toNat, Flags.ofByte_toByte,
    fun v => ⟨Flags.toByte_ofByte v, rfl, rfl, rfl, rfl, rfl, rfl, rfl, rfl⟩⟩

/-- Settles O57, from the state `reset()` answers and the value of a little-endian word. -/
theorem resetCallGivesResetValues : Obligations.ResetCallGivesResetValues := by
  unfold Obligations.ResetCallGivesResetValues
  intro s
  rw [State.resetCall_eq]
  exact ⟨rfl, rfl, rfl, rfl, Flags.initial_toByte, joinBytes_toNat _ _⟩

/-- Settles O58: the fields of `State.powerOn`, with the status byte R40 gives. -/
theorem constructionGivesPowerOnValues : Obligations.ConstructionGivesPowerOnValues :=
  fun _ => ⟨rfl, rfl, rfl, rfl, Flags.initial_toByte, rfl, rfl⟩

end

section
/-! The bus is the only path to memory (spec/20_memory.md R60, R61): fetch, every instruction and so every step reach
memory by the transactions they add to the bus, whatever the collaborator; and the obligation that says so. -/

namespace Sys2Proof.Machine

variable {q : Params} {s t : State} {r : Result}

/-- A meaning that completes from a state memory follows the bus to. -/
theorem Follows.completes (h : Follows q s t) (k : Completes q t r) : Completes q s r := by
  obtain ⟨u, hr, hu⟩ := k
  exact ⟨u, hr, h.trans hu⟩

/-- Both answers of the fetch part of R121 carry a state that memory follows the bus to: the opcode byte and the
operand bytes are `fetch()` calls, and the report of an illegal byte is no transaction. -/
theorem follows_fetchInstr (s : State) :
    (∃ i t, s.fetchInstr q = .instr i t ∧ Follows q s t) ∨ ∃ t, s.fetchInstr q = .illegal t ∧ Follows q s t := by
  unfold State.fetchInstr
  dsimp only
  split
  · exact .inl ⟨_, _, rfl, (follows_fetch s).trans (follows_fetchMany _ _)⟩
  · exact .inr ⟨_, rfl, (follows_fetch s).trans (.same rfl rfl)⟩

/-- The instructions by the shared meaning they call; those of the last case change registers and flags alone. -/
theorem completes_execIn (i : Instr) (s : State) : Completes q s (execIn q i s) := by
  cases i with
  | ldaImm | ldaZp | ldaZpx | ldaAbs | ldaAbsx | ldaAbsy | ldaIndx | ldaIndy =>
    exact completes_loadInto (w := State.writeA) (fun _ _ => rfl) (fun _ _ => rfl) _ s
  | ldxImm | ldxZp | ldxZpy | ldxAbs | ldxAbsy =>
    exact completes_loadInto (w := State.writeX) (fun _ _ => rfl) (fun _ _ => rfl) _ s
  | ldyImm | ldyZp | ldyZpx | ldyAbs | ldyAbsx =>
    exact completes_loadInto (w := State.writeY) (fun _ _ => rfl) (fun _ _ => rfl) _ s
  | staZp | staZpx | staAbs | staAbsx | staAbsy | staIndx | staIndy | stxZp | stxZpy | stxAbs | styZp | styZpx
  | styAbs => exact completes_store _ _ s
  | andImm | andZp | andZpx | andAbs | andAbsx | andAbsy | andIndx | andIndy | oraImm | oraZp | oraZpx | oraAbs
  | oraAbsx | oraAbsy | oraIndx | oraIndy | eorImm | eorZp | eorZpx | eorAbs | eorAbsx | eorAbsy | eorIndx
  | eorIndy => exact completes_logicInto _ _ s
  | bitZp | bitAbs => exact completes_opBit _ s
  | adcImm | adcZp | adcZpx | adcAbs | adcAbsx | adcAbsy | adcIndx | adcIndy | sbcImm | sbcZp | sbcZpx | sbcAbs
  | sbcAbsx | sbcAbsy | sbcIndx | sbcIndy => exact completes_arithInto _ _ s
  | cmpImm | cmpZp | cmpZpx | cmpAbs | cmpAbsx | cmpAbsy | cmpIndx | cmpIndy | cpxImm | cpxZp | cpxAbs | cpyImm
  | cpyZp | cpyAbs => exact completes_compareWith _ _ s
  | incZp | incZpx | incAbs | incAbsx | decZp | decZpx | decAbs | decAbsx => exact completes_stepMem _ _ s
  | aslZp | aslZpx | aslAbs | aslAbsx | lsrZp | lsrZpx | lsrAbs | lsrAbsx | rolZp | rolZpx | rolAbs | rolAbsx
  | rorZp | rorZpx | rorAbs | rorAbsx => exact completes_shiftMem _ _ s
  | bcs | beq | bmi | bvs => exact completes_branchIf _ _ s
  | bcc => exact completes_branchIf (fun f => !f.c) _ s
  | bne => exact completes_branchIf (fun f => !f.z) _ s
  | bpl => exact completes_branchIf (fun f => !f.n) _ s
  | bvc => exact completes_branchIf (fun f => !f.v) _ s
  | jmpAbs | jmpInd => exact completes_jumpTo _ s
  | jsrAbs => exact completes_callTo _ s
  | rts => exact completes_opRts s
  | brk => exact completes_opBrk s
  | rti => exact completes_opRti s
  | pha => exact completes_opPha s
  | php => exact completes_opPhp s
  | pla => exact completes_opPla s
  | plp => exact completes_opPlp s
  | inx | iny | dex | dey | aslAcc | lsrAcc | rolAcc | rorAcc | clc | sec | cld | sed | cli | sei | clv | nop
  | tax | tay | txa | tya | tsx | txs => exact completes_same rfl rfl

theorem completes_stepIn (s : State) : Completes q s.beginStep (stepIn q s) := by
  unfold stepIn
  obtain ⟨i, t, hf, ht⟩ | ⟨t, hf, ht⟩ := follows_fetchInstr (q := q) s.beginStep <;> rw [hf]
  · exact ht.completes (completes_execIn i t)
  · exact ⟨t, rfl, ht⟩

/-- A step begins with an empty bus, so what it added is its whole bus. -/
theorem Follows.replay_of_beginStep (h : Follows q s.beginStep t) : replay s.mem t.bus q.mem = some t.mem := by
  obtain ⟨l, hb, hr⟩ := h
  rw [hb]
  exact hr

theorem stepIn_replays (q : Params) (s : State) :
    ∃ t, stepIn q s = .next t ∧ replay s.mem t.bus q.mem = some t.mem := by
  obtain ⟨t, ht, hf⟩ := completes_stepIn (q := q) s
  exact ⟨t, ht, hf.replay_of_beginStep⟩

end Sys2Proof.Machine

open Sys2Proof Sys2Proof.Machine

/-- Settles O14: a step completes with its memory replayed from its bus under any parameters, and this hardware's step
is the one at `params`, whose collaborator is the ideal RAM. -/
theorem memoryIsReachedOnlyThroughTheBus : Obligations.MemoryIsReachedOnlyThroughTheBus := by
  refine ⟨fun s t hst => ?_, stepIn_replays, step_eq_stepIn⟩
  obtain ⟨u, hu, hr⟩ := stepIn_replays params s
  rw [step_eq_stepIn, hu, Host.Outcome.next.injEq] at hst
  subst hst
  exact hr

end

section
/-! The two results of a step (spec/40_dispatch_addressing.md R122, 60_exceptions.md R330): every instruction answers a
next state and reports nothing of its own, the fetch answers an instruction exactly when the opcode map has one, and
the obligation that says what a step reports. -/

namespace Sys2Proof

/-- The opcode byte alone says whether the bytes the fetch reads are an instruction (R90): the decoder takes as many of
them as the byte calls for, or refuses the byte. -/
theorem decode_take_operandCount (b v w : Byte) :
    (lookup b ≠ none ∧ ∃ i, decode ([b, v, w].take (1 + operandCount b)) = .ok (i, [])) ∨
    (lookup b = none ∧ decode ([b, v, w].take (1 + operandCount b)) = .error (.illegalOpcode b)) := by
  cases h : opcodeCell b with
  | bad => exact .inr (by simp [lookup, operandCount, decode, h])
  | one | two | three => exact .inl (by simp [lookup, operandCount, decode, h])

namespace Machine

/-- What the fetch of a step can answer (R121): an instruction at the state of R140 when the opcode is recognised, the
report of R330 when it is not. -/
theorem State.fetchInstr_cases (s : State) :
    (lookup (s.byteAt s.pc) ≠ none ∧
      ∃ i, s.beginStep.fetchInstr = .instr i (s.afterFetch (1 + operandCount (s.byteAt s.pc)))) ∨
    (lookup (s.byteAt s.pc) = none ∧
      s.beginStep.fetchInstr = .illegal { s with pc := s.pc + 1, lastResult := .illegalOpcode (s.byteAt s.pc) s.pc,
                                                 bus := [s.readAt s.pc] }) := by
  rw [State.fetchInstr_eq, State.codeBytes]
  obtain ⟨hl, i, hd⟩ | ⟨hl, hd⟩ := decode_take_operandCount (s.byteAt s.pc) (s.byteAt (s.pc + 1)) (s.byteAt (s.pc + 2))
    <;> rw [hd]
  · exact .inl ⟨hl, i, rfl⟩
  · exact .inr ⟨hl, rfl⟩

/-- A meaning's answer is a next state with the report it began with. -/
def KeepsReport (s : State) (r : Result) : Prop := ∃ t, r = .next t ∧ t.lastResult = s.lastResult

/-- The implied operations: each answers `s` with fields other than the report replaced. -/
theorem perform_imp_keepsReport (op : Operation) (s : State) : KeepsReport s (perform op .imp s) := by
  cases op with
  | rts => exact ⟨_, opRts_eq s, rfl⟩
  | brk => exact ⟨_, congrArg Host.Outcome.next (State.trapEnter_eq pushSetsLiveBU (s.pc + 1) s), rfl⟩
  | rti => exact ⟨_, congrArg Host.Outcome.next s.trapReturn_eq, rfl⟩
  | php => exact ⟨_, congrArg Host.Outcome.next (State.pushStatus_eq pushSetsLiveBU s), rfl⟩
  | _ => exact ⟨_, rfl, rfl⟩

/-- The operations on A. -/
theorem perform_acc_keepsReport (op : Operation) (s : State) : KeepsReport s (perform op .acc s) := by
  cases op with
  | asl | lsr | rol | ror => exact ⟨_, shiftAcc_eq _ s, rfl⟩
  | _ => exact ⟨s, rfl, rfl⟩

/-- The operations with an address-producing operand, by the shared meaning they call. -/
theorem perform_addr_keepsReport (op : Operation) (m : AddrMode) (s : State) :
    KeepsReport s (perform op (.addr m) s) := by
  cases op with
  | lda | ldx | ldy => exact ⟨_, loadInto_eq _ m s, rfl⟩
  | sta | stx | sty => exact ⟨_, congrArg Host.Outcome.next (AddrMode.store_eq m _ s), rfl⟩
  | and | ora | eor => exact ⟨_, logicInto_eq _ m s, rfl⟩
  | bit => exact ⟨_, opBit_eq m s, rfl⟩
  | adc | sbc => exact ⟨_, arithInto_eq _ m s, rfl⟩
  | cmp | cpx | cpy => exact ⟨_, compareWith_eq _ m s, rfl⟩
  | inc | dec => exact ⟨_, stepMem_eq _ m s, rfl⟩
  | asl | lsr | rol | ror => exact ⟨_, shiftMem_eq _ m s, rfl⟩
  | jmp => exact ⟨_, jumpTo_eq m s, rfl⟩
  | jsr => exact ⟨_, callTo_eq m s, rfl⟩
  | bcc | bcs | beq | bne | bmi | bpl | bvc | bvs =>
    cases m with
    | rel b => rw [perform, branchIf_eq]; exact ⟨_, rfl, rfl⟩
    | _ => exact ⟨s, rfl, rfl⟩
  | _ => cases m <;> exact ⟨s, rfl, rfl⟩

/-- Every instruction completes from every state and reports nothing of its own. -/
theorem exec_keepsReport (i : Instr) (s : State) : KeepsReport s (exec i s) := by
  rw [exec_eq_perform]
  cases i.operand with
  | imp => exact perform_imp_keepsReport _ s
  | acc => exact perform_acc_keepsReport _ s
  | addr m => exact perform_addr_keepsReport _ m s

end Machine

end Sys2Proof

open Sys2Proof Sys2Proof.Machine

/-- Settles O11: a recognised opcode's instruction keeps the report `ok` that the fetch leaves, and a refused byte's
step answers the fetch's own report. -/
theorem everyStepCompletesWithOneOfTwoResults : Obligations.EveryStepCompletesWithOneOfTwoResults := by
  refine ⟨fun s => ?_, exec_keepsReport⟩
  rw [step_eq]
  obtain ⟨hl, i, hf⟩ | ⟨hl, hf⟩ := s.fetchInstr_cases <;> rw [hf]
  · obtain ⟨t, ht, hr⟩ := exec_keepsReport i (s.afterFetch (1 + operandCount (s.byteAt s.pc)))
    exact ⟨t, ht, .inl ⟨hl, hr⟩⟩
  · exact ⟨_, rfl, .inr ⟨hl, _, _, rfl⟩⟩

end

section
/-! The ALU and the instructions that use it (spec/41_alu.md R150-R160): each flag update written out flag by flag, each
8-bit function as arithmetic on numbers, and the obligations of the family. -/

namespace Sys2Proof.Machine

variable {r : Byte}

/-! ### The flag updates, flag by flag -/

theorem beq_zero_eq_decide_toNat (r : Byte) : (r == 0) = decide (r.toNat = 0) :=
  (beq_eq_decide r 0).trans (decide_eq_decide.2 BitVec.toNat_inj.symm)

/-- R150. -/
theorem Flags.setNZ_eq (f : Flags) (r : Byte) :
    f.setNZ r = { f with n := r.getLsbD 7, z := decide (r.toNat = 0) } := by
  rw [Flags.setNZ, beq_zero_eq_decide_toNat]; rfl

theorem Flags.setCNZ_eq (f : Flags) (c : Bool) (r : Byte) :
    f.setCNZ c r = { f with c := c, n := r.getLsbD 7, z := decide (r.toNat = 0) } := by
  rw [Flags.setCNZ, Flags.setNZ_eq]

theorem Flags.setArith_eq (f : Flags) (r : Byte) (c v : Bool) :
    f.setArith r c v = { f with c := c, v := v, n := r.getLsbD 7, z := decide (r.toNat = 0) } := by
  rw [Flags.setArith, Flags.setNZ_eq]

/-- The flags of `Compare(reg, v)` (R153): the difference is zero exactly when its two terms are equal. -/
theorem Flags.setCNZ_compare (f : Flags) (reg v : Byte) :
    f.setCNZ (compareCarry reg v) (compareResult reg v) =
      { f with c := decide (v.toNat ≤ reg.toNat), z := decide (reg = v), n := (reg - v).getLsbD 7 } := by
  have hz : (reg - v == 0) = decide (reg = v) := (beq_eq_decide _ _).trans (decide_eq_decide.2 sub_eq_zero)
  rw [Flags.setCNZ, Flags.setNZ, compareResult, hz]; rfl

/-! ### The 8-bit functions as arithmetic -/

theorem addC_r_toNat (a b : Byte) (cin : Bool) :
    (addC a b cin).r.toNat = (a.toNat + b.toNat + cin.toNat) % 256 := rfl

/-- The sign rule of R151. -/
theorem addC_v (a b : Byte) (cin : Bool) :
    (addC a b cin).v =
      decide (a.getLsbD 7 = b.getLsbD 7 ∧ a.getLsbD 7 ≠ (addC a b cin).r.getLsbD 7) := by
  rw [Bool.decide_and, decide_not]; rfl

theorem inc8_toNat (v : Byte) : (inc8 v).toNat = (v.toNat + 1) % 256 := rfl

theorem dec8_toNat (v : Byte) : (dec8 v).toNat = (v.toNat + 255) % 256 := by
  rw [Nat.add_comm]; rfl

theorem asl_toNat (v : Byte) (c : Bool) : (asl v c).1.toNat = 2 * v.toNat % 256 := by
  simp only [asl, BitVec.toNat_shiftLeft, Nat.shiftLeft_eq]; omega

theorem lsr_toNat (v : Byte) (c : Bool) : (lsr v c).1.toNat = v.toNat / 2 := by
  simp only [lsr, BitVec.toNat_ushiftRight, Nat.shiftRight_eq_div_pow, Nat.pow_one]

/-- The shift leaves bit 0 clear, so setting it to the old carry adds the carry. -/
theorem rol_toNat (v : Byte) (c : Bool) : (rol v c).1.toNat = 2 * v.toNat % 256 + c.toNat := by
  have hor := Nat.two_pow_add_eq_or_of_lt (i := 1) c.toNat_lt (v.toNat % 128)
  have heven : v.toNat <<< 1 % 2 ^ 8 = 2 ^ 1 * (v.toNat % 128) := by rw [Nat.shiftLeft_eq]; omega
  have hc : (if c then 0x01 else 0x00 : Byte).toNat = c.toNat := by cases c <;> rfl
  rw [rol, BitVec.toNat_or, BitVec.toNat_shiftLeft, heven, hc, ← hor]
  omega

/-- The shift leaves bit 7 clear, so setting it to the old carry adds 128 times the carry. -/
theorem ror_toNat (v : Byte) (c : Bool) : (ror v c).1.toNat = v.toNat / 2 + 128 * c.toNat := by
  have hlow : v.toNat >>> 1 < 2 ^ 7 := by have := v.isLt; rw [Nat.shiftRight_eq_div_pow]; omega
  have hc : (if c then 0x80 else 0x00 : Byte).toNat = 2 ^ 7 * c.toNat := by cases c <;> rfl
  rw [ror, BitVec.toNat_or, BitVec.toNat_ushiftRight, hc, Nat.or_comm, ← Nat.two_pow_add_eq_or_of_lt hlow,
    Nat.shiftRight_eq_div_pow]
  omega

/-! ### The shared meanings, flag by flag -/

/-- An instruction is the meaning of its operation over its operand. -/
theorem exec_of_form {i : Instr} {op : Operation} {o : Operand} (s : State) (hop : i.operation = op)
    (ho : i.operand = o) : exec i s = perform op o s := by
  rw [exec_eq_perform, hop, ho]

theorem logicInto_flags (f : Byte → Byte → Byte) (m : AddrMode) (s : State) :
    let r := f s.a (m.value s)
    logicInto f m s =
      .next { s with a := r, p := { s.p with n := r.getLsbD 7, z := decide (r.toNat = 0) },
                     bus := s.bus ++ m.operandReads s } := by
  rw [logicInto_eq, Flags.setNZ_eq]

theorem arithInto_flags (f : Byte → Byte → Bool → AluResult) (m : AddrMode) (s : State) :
    let q := f s.a (m.value s) s.p.c
    arithInto f m s =
      .next { s with
        a := q.r
        p := { s.p with c := q.c, v := q.v, n := q.r.getLsbD 7, z := decide (q.r.toNat = 0) }
        bus := s.bus ++ m.operandReads s } := by
  rw [arithInto_eq, Flags.setArith_eq]

/-- `hreg`: the register compared is none of the model's own fields, so the operand reads do not change it. -/
theorem compareWith_flags (reg : State → Byte) (m : AddrMode) (s : State)
    (hreg : ∀ b, reg { s with bus := b } = reg s) :
    compareWith reg m s =
      .next { s with
        p := { s.p with
          c := decide ((m.value s).toNat ≤ (reg s).toNat)
          z := decide (reg s = m.value s)
          n := (reg s - m.value s).getLsbD 7 }
        bus := s.bus ++ m.operandReads s } := by
  rw [compareWith_eq]
  simp only [hreg, State.setCNZ, Flags.setCNZ_compare]
  rfl

theorem stepMem_flags (f : Byte → Byte) (m : AddrMode) (s : State) :
    let r := f (s.byteAt (m.ea s))
    stepMem f m s =
      .next { s with
        mem := s.mem.write (m.ea s).toNat r
        p := { s.p with n := r.getLsbD 7, z := decide (r.toNat = 0) }
        bus := s.bus ++ m.pointerReads s ++ [s.readAt (m.ea s), .write (m.ea s) r] } := by
  rw [stepMem_eq, Flags.setNZ_eq]

/-- `hr` gives the result as a number, the form the rules R156-R159 have it in. -/
theorem shiftMem_flags {f : Byte → Bool → Byte × Bool} {m : AddrMode} {s : State}
    (hr : r.toNat = (f (s.byteAt (m.ea s)) s.p.c).1.toNat) :
    shiftMem f m s =
      .next { s with
        mem := s.mem.write (m.ea s).toNat r
        p := { s.p with c := (f (s.byteAt (m.ea s)) s.p.c).2, n := r.getLsbD 7, z := decide (r.toNat = 0) }
        bus := s.bus ++ m.pointerReads s ++ [s.readAt (m.ea s), .write (m.ea s) r] } := by
  rw [BitVec.eq_of_toNat_eq hr, shiftMem_eq, Flags.setCNZ_eq]

theorem shiftAcc_flags {f : Byte → Bool → Byte × Bool} {s : State} (hr : r.toNat = (f s.a s.p.c).1.toNat) :
    shiftAcc f s =
      .next { s with
        a := r
        p := { s.p with c := (f s.a s.p.c).2, n := r.getLsbD 7, z := decide (r.toNat = 0) } } := by
  rw [BitVec.eq_of_toNat_eq hr, shiftAcc_eq, Flags.setCNZ_eq]

end Sys2Proof.Machine

open Sys2Proof Sys2Proof.Machine

/-- Settles O34: each operation is the bitwise one of the library, whose bits are the lemmas named. -/
theorem logicalInstructionsCombineBits : Obligations.LogicalInstructionsCombineBits := fun _ m s hm =>
  ⟨fun hop => ⟨_, _, fun _ _ => BitVec.getLsbD_and, (exec_of_form s hop hm).trans (logicInto_flags _ m s)⟩,
    fun hop => ⟨_, _, fun _ _ => BitVec.getLsbD_or, (exec_of_form s hop hm).trans (logicInto_flags _ m s)⟩,
    fun hop => ⟨_, _, fun _ _ => BitVec.getLsbD_xor, (exec_of_form s hop hm).trans (logicInto_flags _ m s)⟩⟩

/-- Settles O35: the flags are those of `Flags.bitTest`. -/
theorem bitTestsMemoryAgainstA : Obligations.BitTestsMemoryAgainstA :=
  fun _ m s hop hm => ⟨_, (exec_of_form s hop hm).trans (opBit_eq m s)⟩

/-- Settles O36: ADC is `addC` of A, the operand and C; it has no D to ask. -/
theorem adcAddsWithCarry : Obligations.AdcAddsWithCarry := by
  intro i m s hop hm
  refine ⟨(addC s.a (m.value s) s.p.c).r, s.bus ++ m.operandReads s, addC_r_toNat _ _ _, ?_⟩
  rw [exec_of_form s hop hm, ← addC_v s.a (m.value s) s.p.c]
  exact arithInto_flags addC m s

/-- Settles O38: one comparison, of three registers. -/
theorem comparesSetCarryZeroNegative : Obligations.ComparesSetCarryZeroNegative := fun _ m s hm =>
  ⟨fun hop => ⟨_, (exec_of_form s hop hm).trans (compareWith_flags State.a m s fun _ => rfl)⟩,
    fun hop => ⟨_, (exec_of_form s hop hm).trans (compareWith_flags State.x m s fun _ => rfl)⟩,
    fun hop => ⟨_, (exec_of_form s hop hm).trans (compareWith_flags State.y m s fun _ => rfl)⟩⟩

/-- Settles O39: the byte written back is `inc8` or `dec8` of the byte read. -/
theorem incAndDecStepMemory : Obligations.IncAndDecStepMemory := fun _ m s hm =>
  ⟨fun hop => ⟨_, _, inc8_toNat _, (exec_of_form s hop hm).trans (stepMem_flags inc8 m s)⟩,
    fun hop => ⟨_, _, dec8_toNat _, (exec_of_form s hop hm).trans (stepMem_flags dec8 m s)⟩⟩

/-- Settles O40: the number given for `r` makes it `inc8` or `dec8` of the register. -/
theorem registerIncrementsAndDecrements : Obligations.RegisterIncrementsAndDecrements := by
  intro s r
  rw [← Flags.setNZ_eq]
  refine ⟨fun hr => ?_, fun hr => ?_, fun hr => ?_, fun hr => ?_⟩
  · rw [BitVec.eq_of_toNat_eq (hr.trans (inc8_toNat s.x).symm)]; rfl
  · rw [BitVec.eq_of_toNat_eq (hr.trans (inc8_toNat s.y).symm)]; rfl
  · rw [BitVec.eq_of_toNat_eq (hr.trans (dec8_toNat s.x).symm)]; rfl
  · rw [BitVec.eq_of_toNat_eq (hr.trans (dec8_toNat s.y).symm)]; rfl

/-- Settles O41: one Accumulator form, with the value of each of the four functions; the bit that leaves is theirs by
definition. -/
theorem accumulatorShiftsAndRotates : Obligations.AccumulatorShiftsAndRotates := fun s _ =>
  ⟨fun hr => shiftAcc_flags (hr.trans (asl_toNat s.a s.p.c).symm),
    fun hr => shiftAcc_flags (hr.trans (lsr_toNat s.a s.p.c).symm),
    fun hr => shiftAcc_flags (hr.trans (rol_toNat s.a s.p.c).symm),
    fun hr => shiftAcc_flags (hr.trans (ror_toNat s.a s.p.c).symm)⟩

/-- Settles O42: the same functions on the byte at the effective address. -/
theorem memoryShiftsAndRotates : Obligations.MemoryShiftsAndRotates := fun _ _ s _ hm =>
  ⟨fun hop hr => ⟨_, (exec_of_form s hop hm).trans (shiftMem_flags (hr.trans (asl_toNat _ s.p.c).symm))⟩,
    fun hop hr => ⟨_, (exec_of_form s hop hm).trans (shiftMem_flags (hr.trans (lsr_toNat _ s.p.c).symm))⟩,
    fun hop hr => ⟨_, (exec_of_form s hop hm).trans (shiftMem_flags (hr.trans (rol_toNat _ s.p.c).symm))⟩,
    fun hop hr => ⟨_, (exec_of_form s hop hm).trans (shiftMem_flags (hr.trans (ror_toNat _ s.p.c).symm))⟩⟩

end

section
/-! The encoding (spec/30_encoding.md R90-R100): what the opcode map has at an instruction's opcode byte, the decoder
and the encoder as inverses of each other, the two views of the opcode table, and the obligations that say so. -/

namespace Sys2Proof

/-! ### The two views of the opcode table -/

/-- The opcode map (R94) holds nothing that the table by mnemonic (R95) does not. -/
theorem mem_opcodes_of_lookup : ∀ b : Byte, ∀ p ∈ lookup b, (p.1, b) ∈ p.2.opcodes := by decide

/-- The table by mnemonic (R95) holds nothing that the opcode map (R94) does not. -/
theorem lookup_of_mem_opcodes (op : Operation) : ∀ p ∈ op.opcodes, lookup p.2 = some (p.1, op) := by
  cases op <;> decide

/-- No mnemonic has two opcodes in one mode. -/
theorem opcodeOf_of_mem_opcodes (op : Operation) : ∀ p ∈ op.opcodes, opcodeOf op p.1 = some p.2 := by
  cases op <;> decide

theorem opcodeOf_of_lookup {b : Byte} {m : Mode} {op : Operation} (h : lookup b = some (m, op)) :
    opcodeOf op m = some b :=
  opcodeOf_of_mem_opcodes op (m, b) (mem_opcodes_of_lookup b (m, op) h)

/-! ### The cell of an instruction -/

/-- The cell makes `i` of `i`'s operand bytes, and of any others an instruction of the same mode and operation. -/
def Cell.Makes (i : Instr) : Cell → Prop
  | .bad => False
  | .one j => j = i ∧ i.operand.bytes = [] ∧ i.operand.field = 0
  | .two f => (∃ v, f v = i) ∧
      ∀ v, (f v).mode = i.mode ∧ (f v).operation = i.operation ∧ (f v).operand.bytes = [v] ∧
        (f v).operand.field = v.toNat
  | .three f => (∃ w, f w = i) ∧
      ∀ w, (f w).mode = i.mode ∧ (f w).operation = i.operation ∧
        (f w).operand.bytes = [Machine.lowByte w, Machine.highByte w] ∧ (f w).operand.field = w.toNat

/-- The opcode map has an instruction at the byte that the table by mnemonic gives it. -/
theorem exists_opcode (i : Instr) :
    ∃ b, opcodeOf i.operation i.mode = some b ∧ (opcodeCell b).Makes i := by
  cases i with
  | inx | iny | dex | dey | aslAcc | lsrAcc | rolAcc | rorAcc | clc | sec | cld | sed | cli | sei | clv | rts | brk
  | rti | nop | tax | tay | txa | tya | tsx | txs | pha | php | pla | plp => exact ⟨_, rfl, rfl, rfl, rfl⟩
  | _ => exact ⟨_, rfl, ⟨_, rfl⟩, fun _ => ⟨rfl, rfl, rfl, rfl⟩⟩

theorem encode_eq {i : Instr} {b : Byte} (h : opcodeOf i.operation i.mode = some b) :
    encode i = b :: i.operand.bytes := by
  rw [encode, h]

theorem decode_of_makes {b : Byte} {i : Instr} (h : (opcodeCell b).Makes i) (rest : List Byte) :
    decode (b :: (i.operand.bytes ++ rest)) = .ok (i, rest) := by
  cases hc : opcodeCell b with
  | bad => rw [hc] at h; exact h.elim
  | one j =>
    rw [hc] at h
    obtain ⟨rfl, hb, -⟩ := h
    simp [decode, hc, hb]
  | two f =>
    rw [hc] at h
    obtain ⟨⟨v, rfl⟩, hf⟩ := h
    obtain ⟨-, -, hbytes, -⟩ := hf v
    simp [decode, hc, hbytes]
  | three f =>
    rw [hc] at h
    obtain ⟨⟨w, rfl⟩, hf⟩ := h
    obtain ⟨-, -, hbytes, -⟩ := hf w
    simp [decode, hc, hbytes, Machine.joinBytes_split]

theorem decode_encode (i : Instr) (rest : List Byte) : decode (encode i ++ rest) = .ok (i, rest) := by
  obtain ⟨b, hb, hm⟩ := exists_opcode i
  rw [encode_eq hb]
  exact decode_of_makes hm rest

/-! ### The cell of a byte -/

/-- A byte that looks up as the form of `i` has the cell that makes `i`. -/
theorem makes_of_lookup {b : Byte} {i : Instr} (h : lookup b = some (i.mode, i.operation)) :
    (opcodeCell b).Makes i := by
  obtain ⟨b', hb', hm⟩ := exists_opcode i
  rw [opcodeOf_of_lookup h, Option.some.injEq] at hb'
  exact hb' ▸ hm

theorem makes_of_cell_one {b : Byte} {i : Instr} (h : opcodeCell b = .one i) : (opcodeCell b).Makes i :=
  makes_of_lookup (by rw [lookup, h])

theorem forall_of_cell_two {b : Byte} {f : Byte → Instr} (h : opcodeCell b = .two f) (v : Byte) :
    lookup b = some ((f v).mode, (f v).operation) ∧ (f v).operand.bytes = [v] ∧
      (f v).operand.field = v.toNat := by
  have hl : lookup b = some ((f 0).mode, (f 0).operation) := by rw [lookup, h]
  have hm := makes_of_lookup hl
  rw [h] at hm
  obtain ⟨hmode, hop, hbytes, hfield⟩ := hm.2 v
  exact ⟨by rw [hmode, hop, hl], hbytes, hfield⟩

theorem forall_of_cell_three {b : Byte} {f : Word → Instr} (h : opcodeCell b = .three f) (w : Word) :
    lookup b = some ((f w).mode, (f w).operation) ∧
      (f w).operand.bytes = [Machine.lowByte w, Machine.highByte w] ∧ (f w).operand.field = w.toNat := by
  have hl : lookup b = some ((f 0).mode, (f 0).operation) := by rw [lookup, h]
  have hm := makes_of_lookup hl
  rw [h] at hm
  obtain ⟨hmode, hop, hbytes, hfield⟩ := hm.2 w
  exact ⟨by rw [hmode, hop, hl], hbytes, hfield⟩

/-! ### Words as two bytes -/

theorem Machine.lowByte_toNat (w : Word) : (lowByte w).toNat = w.toNat % 256 := BitVec.toNat_setWidth ..

theorem Machine.highByte_toNat (w : Word) : (highByte w).toNat = w.toNat / 256 := by
  have := w.isLt
  rw [highByte, BitVec.toNat_setWidth, BitVec.toNat_ushiftRight, Nat.shiftRight_eq_div_pow]
  omega

@[simp] theorem Machine.lowByte_joinBytes (lo hi : Byte) : lowByte (joinBytes lo hi) = lo := by
  apply BitVec.eq_of_toNat_eq
  rw [lowByte_toNat, joinBytes_toNat]
  omega

@[simp] theorem Machine.highByte_joinBytes (lo hi : Byte) : highByte (joinBytes lo hi) = hi := by
  apply BitVec.eq_of_toNat_eq
  rw [highByte_toNat, joinBytes_toNat]
  omega

theorem Machine.toNat_eq_bytes (w : Word) : w.toNat = (lowByte w).toNat + 256 * (highByte w).toNat := by
  rw [← joinBytes_toNat, joinBytes_split]

/-! ### What decodes -/

/-- The opcode byte alone gives the form and how many bytes follow; the bytes that follow are the operand's (R90). -/
theorem decode_cons_ok {b : Byte} {bs rest : List Byte} {i : Instr} (h : decode (b :: bs) = .ok (i, rest)) :
    lookup b = some (i.mode, i.operation) ∧ operandCount b = i.mode.operandBytes ∧
      bs = i.operand.bytes ++ rest := by
  have hlen : i.operand.bytes.length = i.mode.operandBytes := i.operand.bytes_length
  rw [← hlen]
  cases hc : opcodeCell b with
  | bad => simp [decode, hc] at h
  | one j =>
    simp only [decode, hc, Except.ok.injEq, Prod.mk.injEq] at h
    obtain ⟨rfl, rfl⟩ := h
    have hm := makes_of_cell_one hc
    rw [hc] at hm
    simp [lookup, operandCount, hc, hm.2.1]
  | two f =>
    obtain - | ⟨v, bs⟩ := bs
    · simp [decode, hc] at h
    · simp only [decode, hc, Except.ok.injEq, Prod.mk.injEq] at h
      obtain ⟨rfl, rfl⟩ := h
      obtain ⟨hl, hb, -⟩ := forall_of_cell_two hc v
      simp [hl, operandCount, hc, hb]
  | three f =>
    obtain - | ⟨lo, - | ⟨hi, bs⟩⟩ := bs
    · simp [decode, hc] at h
    · simp [decode, hc] at h
    · simp only [decode, hc, Except.ok.injEq, Prod.mk.injEq] at h
      obtain ⟨rfl, rfl⟩ := h
      obtain ⟨hl, hb, -⟩ := forall_of_cell_three hc (Machine.joinBytes lo hi)
      simp [hl, operandCount, hc, hb]

theorem eq_encode_of_decode {bs rest : List Byte} {i : Instr} (h : decode bs = .ok (i, rest)) :
    bs = encode i ++ rest := by
  cases bs with
  | nil => cases h
  | cons b bs =>
    obtain ⟨hl, -, rfl⟩ := decode_cons_ok h
    rw [encode_eq (opcodeOf_of_lookup hl), List.cons_append]

theorem length_encode (i : Instr) : (encode i).length = i.length := by
  obtain ⟨b, hb, -⟩ := exists_opcode i
  rw [encode_eq hb, List.length_cons, Operand.bytes_length, Nat.add_comm]
  rfl

/-! ### Spellings -/

theorem Machine.bytes_eq_ofNat (w : Word) :
    lowByte w = BitVec.ofNat 8 w.toNat ∧ highByte w = BitVec.ofNat 8 (w.toNat / 256) := by
  rw [← highByte_toNat, BitVec.ofNat_toNat, BitVec.ofNat_toNat, BitVec.setWidth_eq]
  exact ⟨rfl, rfl⟩

/-- An operand's bytes are its field, low byte first (R92). -/
theorem Operand.bytes_eq_take (o : Operand) :
    o.bytes = [BitVec.ofNat 8 o.field, BitVec.ofNat 8 (o.field / 256)].take o.mode.operandBytes := by
  cases o with
  | imp | acc => rfl
  | addr m =>
    cases m with
    | abs w | absx w | absy w | ind w =>
      obtain ⟨hlo, hhi⟩ := Machine.bytes_eq_ofNat w
      exact congrArg₂ (fun lo hi => [lo, hi]) hlo hhi
    | imm v | zp v | zpx v | zpy v | indx v | indy v | rel v =>
      exact congrArg (fun b => [b]) (BitVec.ofNat_toNat 8 v).symm

theorem assemble_spelled (i : Instr) : i.spelled.assemble = some (encode i) := by
  obtain ⟨b, hb, -⟩ := exists_opcode i
  have hwf : i.spelled.wellFormed = true := wellFormed_all i
  have ho : opcodeOf i.spelled.op i.spelled.mode = some b := hb
  rw [Spelled.assemble, hwf, ho, encode_eq hb]
  exact congrArg (fun bs => some (b :: bs)) i.operand.bytes_eq_take.symm

theorem exists_lookup_of_pairLegal {w : Spelled} (h : w.pairLegal = true) :
    ∃ b, lookup b = some (w.mode, w.op) := by
  rw [Spelled.pairLegal, List.contains_iff_mem, ← opcodes_modes, List.mem_map] at h
  obtain ⟨⟨m, b⟩, hmem, hm⟩ := h
  exact ⟨b, hm ▸ lookup_of_mem_opcodes w.op _ hmem⟩

/-- A spelling of the form the opcode map has at `b` is `i`'s once the fields agree. -/
theorem spelled_eq {w : Spelled} {b : Byte} {i : Instr} (hw : lookup b = some (w.mode, w.op))
    (hi : lookup b = some (i.mode, i.operation)) (hf : i.operand.field = w.field) : i.spelled = w := by
  rw [hi, Option.some.injEq, Prod.mk.injEq] at hw
  obtain ⟨hm, hop⟩ := hw
  rw [Instr.spelled, hm, hop, hf]

/-- The cell of the pair's byte makes the instruction, the field being its operand. -/
theorem exists_spelled {w : Spelled} (hw : w.wellFormed = true) : ∃ i : Instr, i.spelled = w := by
  rw [Spelled.wellFormed, Bool.and_eq_true, Spelled.fieldFits, decide_eq_true_eq] at hw
  obtain ⟨hpair, hfit⟩ := hw
  obtain ⟨b, hl⟩ := exists_lookup_of_pairLegal hpair
  have mode_bytes : ∀ {i : Instr}, lookup b = some (i.mode, i.operation) →
      w.mode.operandBytes = i.operand.bytes.length := by
    intro i hi
    rw [hl, Option.some.injEq, Prod.mk.injEq] at hi
    rw [hi.1, Operand.bytes_length]
    rfl
  cases hc : opcodeCell b with
  | bad => simp [lookup, hc] at hl
  | one i =>
    have hi : lookup b = some (i.mode, i.operation) := by rw [lookup, hc]
    have hm := makes_of_lookup hi
    rw [hc] at hm
    refine ⟨i, spelled_eq hl hi ?_⟩
    obtain ⟨-, hb, hf⟩ := hm
    rw [mode_bytes hi, hb] at hfit
    rw [hf, Nat.lt_one_iff.1 hfit]
  | two f =>
    obtain ⟨hi, hb, hf⟩ := forall_of_cell_two hc (BitVec.ofNat 8 w.field)
    refine ⟨_, spelled_eq hl hi ?_⟩
    rw [mode_bytes hi, hb] at hfit
    rw [hf, BitVec.toNat_ofNat]
    exact Nat.mod_eq_of_lt hfit
  | three f =>
    obtain ⟨hi, hb, hf⟩ := forall_of_cell_three hc (BitVec.ofNat 16 w.field)
    refine ⟨_, spelled_eq hl hi ?_⟩
    rw [mode_bytes hi, hb] at hfit
    rw [hf, BitVec.toNat_ofNat]
    exact Nat.mod_eq_of_lt (by simpa using hfit)

end Sys2Proof

open Sys2Proof Sys2Proof.Machine

/-- Settles O1: the opcode map has the instruction at the byte the encoder gives it. -/
theorem decodeOfEncodeIsIdentity : Obligations.DecodeOfEncodeIsIdentity := decode_encode

/-- Settles O2: the first byte is the opcode of what it decodes to, and the rest begins with its operand's bytes. -/
theorem decodedBytesAreTheEncoding : Obligations.DecodedBytesAreTheEncoding := fun _ _ _ => eq_encode_of_decode

/-- Settles O3: the spelling is some instruction's, so it assembles to the encoding, which decodes. -/
theorem wellFormedSpellingsAssembleAndDecode : Obligations.WellFormedSpellingsAssembleAndDecode := by
  intro w hw
  obtain ⟨i, rfl⟩ := exists_spelled hw
  have hd := decode_encode i []
  rw [List.append_nil] at hd
  exact ⟨encode i, i, assemble_spelled i, hd, rfl⟩

/-- Settles O4: the thirteen words, by evaluation. -/
theorem writtenOutWordsDecode : Obligations.WrittenOutWordsDecode :=
  ⟨rfl, rfl, rfl, rfl, rfl, rfl, rfl, rfl, rfl, rfl, rfl, rfl, rfl⟩

/-- Settles O5: each table holds what the other does. -/
theorem lookupIsTheTableByMnemonic : Obligations.LookupIsTheTableByMnemonic := fun b m op =>
  ⟨mem_opcodes_of_lookup b (m, op), lookup_of_mem_opcodes op (m, b)⟩

/-- Settles O6: the form and the count of operand bytes come from the opcode byte, the length from the count. -/
theorem opcodeByteAloneGivesModeAndLength : Obligations.OpcodeByteAloneGivesModeAndLength := by
  intro b rest i rest' h
  obtain ⟨hl, hn, rfl⟩ := decode_cons_ok h
  have hlen : i.length = 1 + i.mode.operandBytes := rfl
  have hle := operandCount_le b
  rw [List.length_cons, List.length_append, Operand.bytes_length]
  change _ ∧ _ ∧ _ ∧ i.mode.operandBytes + _ + 1 = _
  exact ⟨hl, hn, by omega, by omega⟩

/-- Settles O7: the 256 bytes looked up, and counted by mode. -/
theorem opcodeCountsByMode : Obligations.OpcodeCountsByMode := by
  unfold Obligations.OpcodeCountsByMode
  exact ⟨rfl, rfl, rfl, rfl, rfl, rfl, rfl, rfl, rfl, rfl, rfl, rfl, rfl, rfl, rfl⟩

/-- Settles O8: the operand each constructor carries. -/
theorem everyFormHasItsOperandKind : Obligations.EveryFormHasItsOperandKind := by
  intro i
  cases i with
  | inx | iny | dex | dey | clc | sec | cld | sed | cli | sei | clv | rts | brk | rti | nop | tax | tay | txa | tya
  | tsx | txs | pha | php | pla | plp => exact .inr (.inr ⟨rfl, rfl⟩)
  | aslAcc | lsrAcc | rolAcc | rorAcc => exact .inr (.inl ⟨rfl, .inl rfl⟩)
  | aslZp | aslZpx | aslAbs | aslAbsx | lsrZp | lsrZpx | lsrAbs | lsrAbsx | rolZp | rolZpx | rolAbs | rolAbsx
  | rorZp | rorZpx | rorAbs | rorAbsx => exact .inr (.inl ⟨rfl, .inr ⟨_, rfl⟩⟩)
  | _ => exact .inl ⟨rfl, _, rfl⟩

end

section
/-! Who writes what (spec/10_state.md R25, R39; 20_memory.md R78): what each operation may change, stated once for all
registers, flags and memory, what the inert flags leave alone, and the obligations that say so. -/

namespace Sys2Proof.Machine

/-! ### What an operation may change -/

/-- The new value is the old one unless the write is allowed. In this form `rfl` decides each case of a concrete
operation: the right side computes to the one value or the other. -/
def Kept {α : Type} (allowed : Bool) (old new : α) : Prop := new = bif allowed then new else old

theorem Kept.allowed_of_ne {α : Type} {allowed : Bool} {old new : α} (h : Kept allowed old new) (hne : new ≠ old) :
    allowed = true := by
  cases allowed with
  | false => exact absurd h hne
  | true => rfl

theorem Kept.allowed_of_ne_or {α β : Type} {allowed : Bool} {old new : α} {old' new' : β}
    (h : Kept allowed (old, old') (new, new')) (hne : new ≠ old ∨ new' ≠ old') : allowed = true :=
  h.allowed_of_ne fun he => hne.elim (fun hn => hn (congrArg Prod.fst he)) fun hn => hn (congrArg Prod.snd he)

theorem Kept.eq {α : Type} {allowed : Bool} {old new : α} (h : Kept allowed old new) (hf : allowed = false) :
    new = old := by
  subst hf
  exact h

/-- The operation writes memory: a store, a push, or a read-modify-write of anything but A. -/
def formWritesMemory (op : Operation) (o : Operand) : Bool :=
  op.isStore || op.isPush || (op.isModify && (o != .acc))

/-- From `s` to `t` no more changes than R25 and R39 list for the operation. -/
structure Frame (op : Operation) (o : Operand) (s t : State) : Prop where
  a : Kept (decide (op ∈ [Operation.lda, .and, .ora, .eor, .adc, .sbc, .txa, .tya, .pla]) ||
    decide (op ∈ [Operation.asl, .lsr, .rol, .ror]) && decide (o = .acc)) s.a t.a
  x : Kept (decide (op ∈ [Operation.ldx, .inx, .dex, .tax, .tsx])) s.x t.x
  y : Kept (decide (op ∈ [Operation.ldy, .iny, .dey, .tay])) s.y t.y
  sp : Kept (decide (op ∈ [Operation.txs, .pha, .php, .pla, .plp, .jsr, .rts, .brk, .rti])) s.sp t.sp
  pc : Kept op.setsPC s.pc t.pc
  c : Kept (decide (op ∈ [Operation.adc, .sbc, .cmp, .cpx, .cpy, .asl, .lsr, .rol, .ror, .clc, .sec, .plp, .rti]))
    s.p.c t.p.c
  zn : Kept (decide (op ∈ [Operation.lda, .ldx, .ldy, .and, .ora, .eor, .bit, .adc, .sbc, .cmp, .cpx, .cpy, .inc, .dec,
    .inx, .iny, .dex, .dey, .asl, .lsr, .rol, .ror, .tax, .tay, .txa, .tya, .tsx, .pla, .plp, .rti]))
    (s.p.z, s.p.n) (t.p.z, t.p.n)
  i : Kept (decide (op ∈ [Operation.cli, .sei, .brk, .plp, .rti])) s.p.i t.p.i
  d : Kept (decide (op ∈ [Operation.cld, .sed, .plp, .rti])) s.p.d t.p.d
  bu : Kept (decide (op ∈ [Operation.php, .brk, .plp, .rti])) (s.p.b, s.p.u) (t.p.b, t.p.u)
  v : Kept (decide (op ∈ [Operation.adc, .sbc, .bit, .clv, .plp, .rti])) s.p.v t.p.v
  mem : Kept (formWritesMemory op o) s.mem t.mem

/-- A meaning's answer is a next state within the operation's frame. -/
def Framed (op : Operation) (o : Operand) (s : State) (r : Result) : Prop := ∃ t, r = .next t ∧ Frame op o s t

theorem Frame.refl (op : Operation) (o : Operand) (s : State) : Frame op o s s := by
  constructor <;> exact (Bool.cond_self ..).symm

theorem perform_imp_framed (op : Operation) (s : State) : Framed op .imp s (perform op .imp s) := by
  cases op with
  | rts => exact ⟨_, opRts_eq s, by constructor <;> rfl⟩
  | brk =>
    exact ⟨_, congrArg Host.Outcome.next (State.trapEnter_eq pushSetsLiveBU (s.pc + 1) s), by constructor <;> rfl⟩
  | rti => exact ⟨_, congrArg Host.Outcome.next s.trapReturn_eq, by constructor <;> rfl⟩
  | php => exact ⟨_, congrArg Host.Outcome.next (State.pushStatus_eq pushSetsLiveBU s), by constructor <;> rfl⟩
  | _ => exact ⟨_, rfl, by constructor <;> rfl⟩

theorem perform_acc_framed (op : Operation) (s : State) : Framed op .acc s (perform op .acc s) := by
  cases op with
  | asl | lsr | rol | ror => exact ⟨_, shiftAcc_eq _ s, by constructor <;> rfl⟩
  | _ => exact ⟨s, rfl, .refl _ _ s⟩

theorem perform_addr_framed (op : Operation) (m : AddrMode) (s : State) :
    Framed op (.addr m) s (perform op (.addr m) s) := by
  cases op with
  | lda | ldx | ldy => exact ⟨_, loadInto_eq _ m s, by constructor <;> rfl⟩
  | sta | stx | sty => exact ⟨_, congrArg Host.Outcome.next (AddrMode.store_eq m _ s), by constructor <;> rfl⟩
  | and | ora | eor => exact ⟨_, logicInto_eq _ m s, by constructor <;> rfl⟩
  | bit => exact ⟨_, opBit_eq m s, by constructor <;> rfl⟩
  | adc | sbc => exact ⟨_, arithInto_eq _ m s, by constructor <;> rfl⟩
  | cmp | cpx | cpy => exact ⟨_, compareWith_eq _ m s, by constructor <;> rfl⟩
  | inc | dec => exact ⟨_, stepMem_eq _ m s, by constructor <;> rfl⟩
  | asl | lsr | rol | ror => exact ⟨_, shiftMem_eq _ m s, by constructor <;> rfl⟩
  | jmp => exact ⟨_, jumpTo_eq m s, by constructor <;> rfl⟩
  | jsr => exact ⟨_, callTo_eq m s, by constructor <;> rfl⟩
  | bcc | bcs | beq | bne | bmi | bpl | bvc | bvs =>
    cases m with
    | rel b => rw [perform, branchIf_eq]; exact ⟨_, rfl, by constructor <;> rfl⟩
    | _ => exact ⟨s, rfl, .refl _ _ s⟩
  | _ => cases m <;> exact ⟨s, rfl, .refl _ _ s⟩

theorem exec_framed (i : Instr) (s : State) : Framed i.operation i.operand s (exec i s) := by
  rw [exec_eq_perform]
  cases i.operand with
  | imp => exact perform_imp_framed _ s
  | acc => exact perform_acc_framed _ s
  | addr m => exact perform_addr_framed _ m s

theorem frame_of_exec {i : Instr} {s t : State} (h : exec i s = .next t) : Frame i.operation i.operand s t := by
  obtain ⟨u, hu, hf⟩ := exec_framed i s
  rw [hu, Host.Outcome.next.injEq] at h
  exact h ▸ hf

/-! ### The inert flags -/

/-- I, D, B and U set otherwise, each as a function of what it was. -/
def State.mapInert (fi fd fb fu : Bool → Bool) (s : State) : State :=
  { s with p := { s.p with i := fi s.p.i, d := fd s.p.d, b := fb s.p.b, u := fu s.p.u } }

/-- `hcond`: the condition asks none of the four flags. -/
theorem branchIf_mapInert {fi fd fb fu : Bool → Bool} {cond : Flags → Bool}
    (hcond : ∀ s : State, cond (s.mapInert fi fd fb fu).p = cond s.p) (rel8 : Byte) (s : State) :
    branchIf cond rel8 (s.mapInert fi fd fb fu) = mapNext (State.mapInert fi fd fb fu) (branchIf cond rel8 s) := by
  rw [branchIf_eq, branchIf_eq, hcond]
  rfl

/-- No instruction but the writers and pushers of a flag sees it: the answer from the changed state is the changed
answer. `hi` and `hd`: CLI and SEI, CLD and SED are no writers where their flag is not changed. -/
theorem exec_mapInert {fi fd fb fu : Bool → Bool} (i : Instr) (s : State)
    (hi : fi = id ∨ i.operation ∉ [Operation.cli, .sei]) (hd : fd = id ∨ i.operation ∉ [Operation.cld, .sed])
    (hpush : i.operation ∉ [Operation.php, .brk, .plp, .rti]) :
    exec i (s.mapInert fi fd fb fu) = mapNext (State.mapInert fi fd fb fu) (exec i s) := by
  cases i with
  | php | brk | plp | rti => exact absurd (by decide) hpush
  | cli | sei => rw [hi.resolve_right (by decide)]; rfl
  | cld | sed => rw [hd.resolve_right (by decide)]; rfl
  | bcs | beq | bmi | bvs => exact branchIf_mapInert (fun _ => rfl) _ s
  | bcc => exact branchIf_mapInert (cond := fun f => !f.c) (fun _ => rfl) _ s
  | bne => exact branchIf_mapInert (cond := fun f => !f.z) (fun _ => rfl) _ s
  | bpl => exact branchIf_mapInert (cond := fun f => !f.n) (fun _ => rfl) _ s
  | bvc => exact branchIf_mapInert (cond := fun f => !f.v) (fun _ => rfl) _ s
  | _ => rfl

end Sys2Proof.Machine

open Sys2Proof Sys2Proof.Machine

/-- Settles O18: the register part of the frame of `exec`. -/
theorem onlyListedInstructionsWriteEachRegister : Obligations.OnlyListedInstructionsWriteEachRegister := by
  intro i s t h
  have hf := frame_of_exec h
  refine ⟨fun hne => ?_, fun hne => of_decide_eq_true (hf.x.allowed_of_ne hne),
    fun hne => of_decide_eq_true (hf.y.allowed_of_ne hne), fun hne => of_decide_eq_true (hf.sp.allowed_of_ne hne),
    hf.pc.allowed_of_ne⟩
  simpa only [Bool.or_eq_true, Bool.and_eq_true, decide_eq_true_eq] using hf.a.allowed_of_ne hne

/-- Settles O19: the flag part of the frame of `exec`. -/
theorem onlyListedInstructionsWriteEachFlag : Obligations.OnlyListedInstructionsWriteEachFlag := by
  intro i s t h
  have hf := frame_of_exec h
  exact ⟨fun hne => of_decide_eq_true (hf.c.allowed_of_ne hne),
    fun hne => of_decide_eq_true (hf.zn.allowed_of_ne_or hne),
    fun hne => of_decide_eq_true (hf.i.allowed_of_ne hne), fun hne => of_decide_eq_true (hf.d.allowed_of_ne hne),
    fun hne => of_decide_eq_true (hf.bu.allowed_of_ne_or hne),
    fun hne => of_decide_eq_true (hf.v.allowed_of_ne hne)⟩

/-- Settles O20: each of the four changes is `State.mapInert` with the other three flags kept. -/
theorem inertFlagsSteerNothing : Obligations.InertFlagsSteerNothing := by
  intro i s q
  refine ⟨fun h => ?_, fun h => ?_, fun h => ⟨?_, ?_⟩⟩
  · exact exec_mapInert (fi := fun _ => q) (fd := id) (fb := id) (fu := id) i s
      (.inr (h <| List.mem_append_left [Operation.php, .brk, .plp, .rti] ·)) (.inl rfl)
      (h <| List.mem_append_right [Operation.cli, .sei] ·)
  · exact exec_mapInert (fi := id) (fd := fun _ => q) (fb := id) (fu := id) i s
      (.inl rfl) (.inr (h <| List.mem_append_left [Operation.php, .brk, .plp, .rti] ·))
      (h <| List.mem_append_right [Operation.cld, .sed] ·)
  · exact exec_mapInert (fi := id) (fd := id) (fb := fun _ => q) (fu := id) i s (.inl rfl) (.inl rfl) h
  · exact exec_mapInert (fi := id) (fd := id) (fb := id) (fu := fun _ => q) i s (.inl rfl) (.inl rfl) h

/-- Settles O21: the memory part of the frame of `exec`. -/
theorem otherInstructionsLeaveMemory : Obligations.OtherInstructionsLeaveMemory := by
  intro i s t hw h
  have hm : t.mem = s.mem := (frame_of_exec h).mem.eq hw
  exact ⟨hm, fun addr => congrArg (Memory.read · addr.toNat) hm⟩

end

section
/-! The stack (spec/20_memory.md R68, R72-R74; 46_jump_system.md R292-R295; 47_transfer_stack.md R316-R319): what each
instruction that pushes or pulls answers, the returns that undo the calls, and the obligations that say so. -/

namespace Sys2Proof.Machine

/-! ### Bytes of a word and stack pointers -/

theorem eq_bytes_of_append_eq {hi lo : Byte} {w : Word} (h : hi ++ lo = w) : hi = highByte w ∧ lo = lowByte w :=
  h ▸ ⟨(highByte_joinBytes lo hi).symm, (lowByte_joinBytes lo hi).symm⟩

theorem sub_one_sub_one (v : Byte) : v - 1 - 1 = v - 2 := BitVec.sub_sub ..
theorem sub_two_sub_one (v : Byte) : v - 2 - 1 = v - 3 := BitVec.sub_sub ..
theorem ne_sub_one (v : Byte) : v ≠ v - 1 := by bv_omega
theorem ne_sub_two (v : Byte) : v ≠ v - 2 := by bv_omega
theorem sub_two_add_one (v : Byte) : v - 2 + 1 = v - 1 := by bv_omega
theorem sub_three_add_one (v : Byte) : v - 3 + 1 = v - 2 := by bv_omega
theorem sub_three_add_two (v : Byte) : v - 3 + 2 = v - 1 := by bv_omega
theorem add_one_add_one (v : Byte) : v + 1 + 1 = v + 2 := BitVec.add_assoc ..
theorem add_two_add_one (v : Byte) : v + 2 + 1 = v + 3 := BitVec.add_assoc ..

/-- The byte on the stack that a stack pointer designates (R21). -/
theorem State.byteAt_stackAddr (s : State) (v : Byte) : s.byteAt (stackAddr v) = s.mem.read (256 + v.toNat) := by
  rw [State.byteAt, stackAddr_toNat]

theorem pushSlots_bounds (op : Operation) (sp : Byte) :
    ∀ addr ∈ pushSlots op sp, 0x0100 ≤ addr.toNat ∧ addr.toNat ≤ 0x01FF := by
  have bounds : ∀ v, 0x0100 ≤ (stackAddr v).toNat ∧ (stackAddr v).toNat ≤ 0x01FF := by
    intro v
    have := v.isLt
    rw [stackAddr_toNat]
    omega
  cases op with
  | pha | php | jsr | brk => simp [pushSlots, bounds]
  | _ => simp [pushSlots]

/-- The status image is the byte of the flags with B and U set (R36). -/
theorem Flags.pushImage_eq (f : Flags) : f.pushImage = ({ f with b := true, u := true } : Flags).toByte := by
  rw [← Flags.ofByte_pushImage, Flags.toByte_ofByte]

/-- PLP's load, with B and U cleared (R36). -/
theorem Flags.plpLoad_eq (v : Byte) : Flags.plpLoad v = { Flags.ofByte v with b := false, u := false } := by
  simp [Flags.plpLoad, Flags.ofByte]

/-! ### The bytes a push leaves -/

variable {s t : State}

theorem State.byteAt_push_same (v : Byte) (h : s.mem.wf = true) : (s.push v).byteAt (stackAddr s.sp) = v :=
  State.byteAt_memWrite_same s _ v h

theorem State.byteAt_push_other (v : Byte) {b : Word} (hne : b ≠ stackAddr s.sp) :
    (s.push v).byteAt b = s.byteAt b :=
  State.byteAt_memWrite_other s v hne.symm

/-- Two slots are one only at the same stack pointer (R21). -/
theorem stackAddr_ne {v w : Byte} (h : v ≠ w) : stackAddr v ≠ stackAddr w := mt stackAddr_inj.1 h

theorem State.byteAt_push16_high (w : Word) (h : s.mem.wf = true) :
    (s.push16 w).byteAt (stackAddr s.sp) = highByte w :=
  (State.byteAt_push_other _ (stackAddr_ne (ne_sub_one s.sp))).trans (State.byteAt_push_same _ h)

theorem State.byteAt_push16_low (w : Word) (h : s.mem.wf = true) :
    (s.push16 w).byteAt (stackAddr (s.sp - 1)) = lowByte w :=
  State.byteAt_push_same (s := s.push (highByte w)) _ (State.push_wf s _ h)

theorem State.byteAt_push16_other (w : Word) {b : Word} (h : b ≠ stackAddr s.sp) (h' : b ≠ stackAddr (s.sp - 1)) :
    (s.push16 w).byteAt b = s.byteAt b :=
  (State.byteAt_push_other (s := s.push (highByte w)) _ h').trans (State.byteAt_push_other _ h)

/-! ### The calls and the returns, in bytes at stack addresses -/

theorem exec_rts_eq (s : State) :
    exec .rts s = .next { s with
      sp := s.sp + 2
      pc := (s.byteAt (stackAddr (s.sp + 2)) ++ s.byteAt (stackAddr (s.sp + 1))) + 1
      bus := s.bus ++ [s.readAt (stackAddr (s.sp + 1)), s.readAt (stackAddr (s.sp + 2))] } := by
  refine (opRts_eq s).trans ?_
  simp only [add_one_add_one]
  rfl

theorem exec_rti_eq (s : State) :
    exec .rti s = .next { s with
      sp := s.sp + 3
      p := Flags.ofByte (s.byteAt (stackAddr (s.sp + 1)))
      pc := s.byteAt (stackAddr (s.sp + 3)) ++ s.byteAt (stackAddr (s.sp + 2))
      bus := s.bus ++ [s.readAt (stackAddr (s.sp + 1)), s.readAt (stackAddr (s.sp + 2)),
        s.readAt (stackAddr (s.sp + 3))] } := by
  refine (congrArg Host.Outcome.next s.trapReturn_eq).trans ?_
  simp only [add_one_add_one, add_two_add_one]
  rfl

theorem exec_jsr_eq (w : Word) (s : State) :
    exec (.jsrAbs w) s = .next ((s.push16 (s.pc - 1)).writePC w) := rfl

theorem exec_brk_eq (s : State) :
    exec .brk s = .next { s with
      pc := s.byteAt (Config.brkVector + 1) ++ s.byteAt Config.brkVector
      sp := s.sp - 3
      p := { s.p with b := true, u := true, i := true }
      mem := ((s.mem.write (stackAddr s.sp).toNat (highByte (s.pc + 1))).write
        (stackAddr (s.sp - 1)).toNat (lowByte (s.pc + 1))).write (stackAddr (s.sp - 2)).toNat s.p.pushImage
      bus := s.bus ++ [.write (stackAddr s.sp) (highByte (s.pc + 1)),
        .write (stackAddr (s.sp - 1)) (lowByte (s.pc + 1)), .write (stackAddr (s.sp - 2)) s.p.pushImage,
        s.readAt Config.brkVector, s.readAt (Config.brkVector + 1)] } := by
  refine (congrArg Host.Outcome.next (State.trapEnter_eq pushSetsLiveBU (s.pc + 1) s)).trans ?_
  simp only [sub_one_sub_one, sub_two_sub_one]
  rfl

/-- BRK's pushes; what follows them writes no memory. -/
theorem byteAt_brk (h : exec .brk s = .next t) (b : Word) :
    t.byteAt b = ((s.push16 (s.pc + 1)).push s.p.pushImage).byteAt b := by
  cases h
  rfl

theorem sp_brk (h : exec .brk s = .next t) : t.sp = s.sp - 3 := by
  rw [exec_brk_eq, Host.Outcome.next.injEq] at h
  rw [← h]

/-- The three slots BRK pushes to, and every other byte. -/
theorem byteAt_brk_slots (h : exec .brk s = .next t) :
    (s.mem.wf = true → t.byteAt (stackAddr s.sp) = highByte (s.pc + 1) ∧
      t.byteAt (stackAddr (s.sp - 1)) = lowByte (s.pc + 1) ∧ t.byteAt (stackAddr (s.sp - 2)) = s.p.pushImage) ∧
    ∀ b, b ∉ pushSlots .brk s.sp → t.byteAt b = s.byteAt b := by
  have hsp : (s.push16 (s.pc + 1)).sp = s.sp - 2 := sub_one_sub_one s.sp
  simp only [byteAt_brk h]
  refine ⟨fun hwf => ⟨?_, ?_, ?_⟩, fun b hb => ?_⟩
  · rw [State.byteAt_push_other _ (stackAddr_ne (hsp ▸ ne_sub_two s.sp)), State.byteAt_push16_high _ hwf]
  · rw [State.byteAt_push_other _ (stackAddr_ne (hsp ▸ sub_one_sub_one s.sp ▸ ne_sub_one (s.sp - 1))),
      State.byteAt_push16_low _ hwf]
  · rw [← hsp, State.byteAt_push_same _ (State.push16_wf s _ hwf)]
  · simp only [pushSlots, List.mem_cons, List.not_mem_nil, or_false, not_or] at hb
    obtain ⟨h0, h1, h2⟩ := hb
    rw [State.byteAt_push_other _ (hsp ▸ h2), State.byteAt_push16_other _ h0 h1]

end Sys2Proof.Machine

open Sys2Proof Sys2Proof.Machine

/-- Settles O46: the two bytes given are those of PC - 1. -/
theorem jsrPushesReturnAddressAndJumps : Obligations.JsrPushesReturnAddressAndJumps := by
  intro w s hi lo h
  obtain ⟨rfl, rfl⟩ := eq_bytes_of_append_eq h
  refine (callTo_eq (.abs w) s).trans ?_
  simp only [sub_one_sub_one, stackAddr_toNat, AddrMode.pointerReads, List.append_nil]
  rfl

/-- Settles O47, the stack addresses as numbers. -/
theorem rtsPullsReturnAddress : Obligations.RtsPullsReturnAddress := by
  intro s
  simp only [← State.byteAt_stackAddr]
  exact exec_rts_eq s

/-- Settles O48: the two bytes given are those of PC + 1, and the image is `PushImage(P)`. -/
theorem brkEntersTheTrap : Obligations.BrkEntersTheTrap := by
  intro s hi lo img h himg
  obtain ⟨rfl, rfl⟩ := eq_bytes_of_append_eq h
  rw [himg, ← Flags.pushImage_eq]
  simp only [← stackAddr_toNat]
  exact exec_brk_eq s

/-- Settles O49, the stack addresses as numbers. -/
theorem rtiRestoresStatusAndPC : Obligations.RtiRestoresStatusAndPC := by
  intro s
  simp only [← State.byteAt_stackAddr]
  exact exec_rti_eq s

/-- Settles O54: one push, of A or of `PushImage(P)`. -/
theorem pushInstructionsPush : Obligations.PushInstructionsPush := by
  intro s img himg
  rw [himg, ← Flags.pushImage_eq]
  dsimp only
  rw [← stackAddr_toNat]
  exact ⟨rfl, congrArg Host.Outcome.next (State.pushStatus_eq true s), State.pushStatus_eq false s⟩

/-- Settles O55: the flags of PLA are `SetNZ`'s and those of PLP `PlpLoad`'s. -/
theorem pullInstructionsPull : Obligations.PullInstructionsPull := by
  intro s
  dsimp only
  rw [← State.byteAt_stackAddr, ← Flags.setNZ_eq, ← Flags.plpLoad_eq]
  exact ⟨rfl, rfl⟩

/-- Settles O23: the frame of each pushing instruction's pushes. -/
theorem pushesTouchOnlyTheirStackSlots : Obligations.PushesTouchOnlyTheirStackSlots := by
  intro i s t hp h
  refine ⟨pushSlots_bounds _ _, fun b hb => ?_⟩
  cases i with
  | pha =>
    cases h
    exact State.byteAt_push_other _ (List.ne_of_not_mem_cons hb)
  | php =>
    cases h
    exact State.byteAt_push_other (s := s.writeP _) _ (List.ne_of_not_mem_cons hb)
  | jsrAbs w =>
    cases h
    exact State.byteAt_push16_other _ (List.ne_of_not_mem_cons hb)
      (List.ne_of_not_mem_cons (List.not_mem_of_not_mem_cons hb))
  | brk => exact (byteAt_brk_slots h).2 b hb
  | _ => exact absurd hp Bool.false_ne_true

/-- Settles O51: RTS finds the two bytes JSR pushed, and they are those of PC - 1. -/
theorem rtsAfterJsrReturns : Obligations.RtsAfterJsrReturns := by
  intro w s t r hwf ht hsp hslots
  cases ht
  have hr : r.sp = s.sp - 2 := hsp.trans (sub_one_sub_one s.sp)
  have hhi : r.byteAt (stackAddr s.sp) = highByte (s.pc - 1) :=
    (hslots _ (by simp [pushSlots])).trans (State.byteAt_push16_high _ hwf)
  have hlo : r.byteAt (stackAddr (s.sp - 1)) = lowByte (s.pc - 1) :=
    (hslots _ (by simp [pushSlots])).trans (State.byteAt_push16_low _ hwf)
  refine ⟨_, exec_rts_eq r, ?_, ?_⟩
  · simp only [hr, sub_two_add_one, BitVec.sub_add_cancel, hhi, hlo]
    rw [show highByte (s.pc - 1) ++ lowByte (s.pc - 1) = s.pc - 1 from joinBytes_split _, BitVec.sub_add_cancel]
  · rw [hr, BitVec.sub_add_cancel]

/-- Settles O52: RTI finds the three bytes BRK pushed. -/
theorem rtiAfterBrkRestores : Obligations.RtiAfterBrkRestores := by
  intro s t r hwf ht hsp hslots
  have hr : r.sp = s.sp - 3 := hsp.trans (sp_brk ht)
  obtain ⟨hhi, hlo, himg⟩ := (byteAt_brk_slots ht).1 hwf
  rw [← hslots _ (by simp [pushSlots])] at hhi hlo himg
  refine ⟨_, exec_rti_eq r, ?_, ?_, ?_, ?_⟩
  · simp only [hr, sub_three_add_two, BitVec.sub_add_cancel, hhi, hlo]
    exact joinBytes_split _
  · rw [hr, BitVec.sub_add_cancel]
  · rw [hr, sub_three_add_one, himg, Flags.ofByte_pushImage]
  · rw [hr, sub_three_add_one, himg, Flags.toByte_ofByte]
    rfl

/-- Settles O56: PLA finds the byte PHA pushed. -/
theorem plaAfterPhaRestoresA : Obligations.PlaAfterPhaRestoresA := by
  intro s t hwf ht
  cases ht
  have hsp : (s.push s.a).sp + 1 = s.sp := BitVec.sub_add_cancel ..
  have ha : (s.push s.a).byteAt (stackAddr ((s.push s.a).sp + 1)) = s.a := by
    rw [hsp, State.byteAt_push_same _ hwf]
  refine ⟨_, opPla_eq (s.push s.a), ha, hsp, rfl, rfl, ?_⟩
  rw [ha]
  exact Flags.setNZ_eq s.p s.a

end

section
/-! The step (spec/40_dispatch_addressing.md R121-R125, R140; 20_memory.md R78; 60_exceptions.md R330): the two things a
step can be, the transactions of every instruction, what every step keeps, and the obligations that say so. -/

namespace Sys2Proof.Machine

variable {s t : State} {i : Instr} {rest : List Byte}

/-! ### The two things a step can be -/

/-- The fetch takes the bytes of the instruction that stands at PC, no more and no fewer (R121, R140). -/
theorem step_of_decode (h : decode s.codeBytes = .ok (i, rest)) : step s = exec i (s.afterFetch i.length) := by
  obtain ⟨-, hn, -⟩ := decode_cons_ok h
  have hlen : 1 + operandCount (s.byteAt s.pc) = i.length := congrArg (1 + ·) hn
  have hbytes : s.codeBytes.take i.length = encode i ++ [] := by
    rw [eq_encode_of_decode h, List.append_nil, List.take_left' (length_encode i)]
  rw [step_eq, State.fetchInstr_eq, hlen, hbytes, decode_encode]

/-- A recognised opcode's bytes are an instruction, which the step runs; any other is reported (R330). -/
theorem step_cases (s : State) :
    (∃ i rest, decode s.codeBytes = .ok (i, rest) ∧ step s = exec i (s.afterFetch i.length)) ∨
    (lookup (s.byteAt s.pc) = none ∧
      step s = .next { s with pc := s.pc + 1, lastResult := .illegalOpcode (s.byteAt s.pc) s.pc,
                              bus := [s.readAt s.pc] }) := by
  obtain ⟨-, i, hd⟩ | ⟨hl, -⟩ :=
    decode_take_operandCount (s.byteAt s.pc) (s.byteAt (s.pc + 1)) (s.byteAt (s.pc + 2))
  · have hdec : decode s.codeBytes = .ok (i, s.codeBytes.drop (1 + operandCount (s.byteAt s.pc))) := by
      rw [← decode_encode i, ← List.append_nil (encode i), ← eq_encode_of_decode hd]
      exact congrArg decode (List.take_append_drop ..).symm
    exact .inl ⟨i, _, hdec, step_of_decode hdec⟩
  · obtain ⟨hne, -⟩ | ⟨-, hf⟩ := s.fetchInstr_cases
    · exact absurd hl hne
    · exact .inr ⟨hl, by rw [step_eq, hf]⟩

/-! ### The illegal bytes -/

/-- The list of R96 is what the opcode map leaves out, in rising order. -/
theorem illegalBytes_eq_filter :
    illegalBytes = ((List.range 256).map (BitVec.ofNat 8)).filter fun b => (lookup b).isNone := by decide

theorem lookup_eq_none_iff (b : Byte) : lookup b = none ↔ b ∈ illegalBytes := by
  have hb : b ∈ (List.range 256).map (BitVec.ofNat 8) :=
    List.mem_map.2 ⟨b.toNat, List.mem_range.2 b.isLt, BitVec.eq_of_toNat_eq (by simp)⟩
  rw [illegalBytes_eq_filter, List.mem_filter, Option.isNone_iff_eq_none, and_iff_right hb]

/-! ### The transactions -/

/-- A meaning's answer is a next state whose bus has gained these transactions. -/
def AddsToBus (s : State) (l : List BusAccess) (r : Result) : Prop := ∃ t, r = .next t ∧ t.bus = s.bus ++ l

/-- The transactions of every instruction (R78 phases 2 and 3), by the shared meaning it calls; those of the last case
make none. -/
theorem exec_addsToBus (i : Instr) (s : State) : AddsToBus s (opAccesses i s) (exec i s) := by
  cases i with
  | ldaImm | ldaZp | ldaZpx | ldaAbs | ldaAbsx | ldaAbsy | ldaIndx | ldaIndy | ldxImm | ldxZp | ldxZpy | ldxAbs
  | ldxAbsy | ldyImm | ldyZp | ldyZpx | ldyAbs | ldyAbsx => exact ⟨_, loadInto_eq _ _ s, rfl⟩
  | staZp | staZpx | staAbs | staAbsx | staAbsy | staIndx | staIndy | stxZp | stxZpy | stxAbs | styZp | styZpx
  | styAbs => exact ⟨_, congrArg Host.Outcome.next (AddrMode.store_eq _ _ s), List.append_assoc ..⟩
  | andImm | andZp | andZpx | andAbs | andAbsx | andAbsy | andIndx | andIndy | oraImm | oraZp | oraZpx | oraAbs
  | oraAbsx | oraAbsy | oraIndx | oraIndy | eorImm | eorZp | eorZpx | eorAbs | eorAbsx | eorAbsy | eorIndx
  | eorIndy => exact ⟨_, logicInto_eq _ _ s, rfl⟩
  | bitZp | bitAbs => exact ⟨_, opBit_eq _ s, rfl⟩
  | adcImm | adcZp | adcZpx | adcAbs | adcAbsx | adcAbsy | adcIndx | adcIndy | sbcImm | sbcZp | sbcZpx | sbcAbs
  | sbcAbsx | sbcAbsy | sbcIndx | sbcIndy => exact ⟨_, arithInto_eq _ _ s, rfl⟩
  | cmpImm | cmpZp | cmpZpx | cmpAbs | cmpAbsx | cmpAbsy | cmpIndx | cmpIndy | cpxImm | cpxZp | cpxAbs | cpyImm
  | cpyZp | cpyAbs => exact ⟨_, compareWith_eq _ _ s, rfl⟩
  | incZp | incZpx | incAbs | incAbsx | decZp | decZpx | decAbs | decAbsx =>
    exact ⟨_, stepMem_eq _ _ s, List.append_assoc ..⟩
  | aslZp | aslZpx | aslAbs | aslAbsx | lsrZp | lsrZpx | lsrAbs | lsrAbsx | rolZp | rolZpx | rolAbs | rolAbsx
  | rorZp | rorZpx | rorAbs | rorAbsx => exact ⟨_, shiftMem_eq _ _ s, List.append_assoc ..⟩
  | bcs | beq | bmi | bvs => exact ⟨_, branchIf_eq _ _ s, (List.append_nil _).symm⟩
  | bcc => exact ⟨_, branchIf_eq (fun f => !f.c) _ s, (List.append_nil _).symm⟩
  | bne => exact ⟨_, branchIf_eq (fun f => !f.z) _ s, (List.append_nil _).symm⟩
  | bpl => exact ⟨_, branchIf_eq (fun f => !f.n) _ s, (List.append_nil _).symm⟩
  | bvc => exact ⟨_, branchIf_eq (fun f => !f.v) _ s, (List.append_nil _).symm⟩
  | jmpAbs | jmpInd => exact ⟨_, jumpTo_eq _ s, rfl⟩
  | jsrAbs => exact ⟨_, callTo_eq _ s, List.append_assoc ..⟩
  | rts => exact ⟨_, exec_rts_eq s, rfl⟩
  | brk => exact ⟨_, exec_brk_eq s, rfl⟩
  | rti => exact ⟨_, exec_rti_eq s, rfl⟩
  | php => exact ⟨_, congrArg Host.Outcome.next (State.pushStatus_eq pushSetsLiveBU s), rfl⟩
  | pha | pla | plp => exact ⟨_, rfl, rfl⟩
  | inx | iny | dex | dey | aslAcc | lsrAcc | rolAcc | rorAcc | clc | sec | cld | sed | cli | sei | clv | nop
  | tax | tay | txa | tya | tsx | txs => exact ⟨_, rfl, (List.append_nil _).symm⟩

theorem bus_of_exec (h : exec i s = .next t) : t.bus = s.bus ++ opAccesses i s := by
  obtain ⟨u, hu, hb⟩ := exec_addsToBus i s
  rw [hu, Host.Outcome.next.injEq] at h
  exact h ▸ hb

/-! ### How many transactions there are -/

theorem mode_mem_modes (i : Instr) : i.mode ∈ i.operation.modes := List.contains_iff_mem.1 (pairLegal_all i)

theorem ind_not_mem_modes_of_isModify {op : Operation} (h : op.isModify = true) : Mode.ind ∉ op.modes := by
  cases op with
  | inc | dec | asl | lsr | rol | ror => decide
  | _ => exact absurd h Bool.false_ne_true

/-- The reads that get an address: the instruction's bytes and the pointer's. The longest are JMP (ind)'s. -/
theorem length_add_pointerReads_le (m : AddrMode) (s : State) : m.mode.length + (m.pointerReads s).length ≤ 5 := by
  cases m <;> exact Nat.le_of_ble_eq_true rfl

theorem length_add_pointerReads_le_of_ne_ind {m : AddrMode} (s : State) (h : m.mode ≠ .ind) :
    m.mode.length + (m.pointerReads s).length ≤ 4 := by
  cases m with
  | ind w => exact absurd rfl h
  | _ => exact Nat.le_of_ble_eq_true rfl

theorem length_operandReads_le (m : AddrMode) (s : State) :
    (m.operandReads s).length ≤ (m.pointerReads s).length + 1 := by
  cases m <;> exact Nat.le_of_ble_eq_true rfl

/-- The most are BRK's: the read of its opcode, three pushes, two vector reads. -/
theorem length_add_opAccesses_le (i : Instr) (s : State) : i.length + (opAccesses i s).length ≤ 6 := by
  cases ho : i.operand with
  | imp =>
    have hlen : i.length = 1 := by rw [Instr.length, Instr.mode, ho]; rfl
    rw [opAccesses, ho, hlen]
    cases i.operation <;> exact Nat.le_of_ble_eq_true rfl
  | acc => simp [opAccesses, ho, Instr.length, Instr.mode, Operand.mode, Mode.length, Mode.operandBytes]
  | addr m =>
    have hmode : i.mode = m.mode := by rw [Instr.mode, ho]; rfl
    have hptr := length_add_pointerReads_le m s
    have hread := length_operandReads_le m s
    rw [Instr.length, hmode]
    simp only [opAccesses, ho]
    split_ifs with hr hs hm hj
    · omega
    · simp only [List.length_append, List.length_singleton]; omega
    · have hne : m.mode ≠ .ind := fun h => ind_not_mem_modes_of_isModify hm (h ▸ hmode ▸ mode_mem_modes i)
      have := length_add_pointerReads_le_of_ne_ind s hne
      simp only [List.length_append, List.length_singleton]; omega
    · have : m.mode.length ≤ 3 := by cases m <;> exact Nat.le_of_ble_eq_true rfl
      simp only [List.length_cons, List.length_nil]; omega
    · omega

theorem length_codeReads_le (s : State) (n : Nat) : (s.codeReads n).length ≤ n := List.length_take_le ..

/-! ### What every step keeps -/

/-- Memory is changed by writes at bus addresses alone, and each keeps the canonical form. -/
theorem replay_wf {m m' : Memory} {l : List BusAccess} (h : replay m l = some m') (hm : m.wf = true) :
    m'.wf = true := by
  induction l generalizing m with
  | nil => exact Option.some.inj h ▸ hm
  | cons access l ih =>
    cases access with
    | read addr v =>
      rw [replay, memModel_read] at h
      exact ih (Option.ite_none_right_eq_some.1 h).2 hm
    | write addr v => exact ih h (Memory.write_wf hm addr.isLt)

theorem step_keeps_wf (hs : s.mem.wf = true) (h : step s = .next t) : t.mem.wf = true :=
  replay_wf (memoryIsReachedOnlyThroughTheBus.1 s t h) hs

theorem reportHonest_of_ok (h : t.lastResult = .ok) : t.reportHonest = true := by
  rw [State.reportHonest, h]

/-- Whatever the state before, a step leaves an honest report and at most six transactions. -/
theorem step_report_and_bus (h : step s = .next t) : t.reportHonest = true ∧ t.bus.length ≤ 6 := by
  obtain ⟨i, rest, -, hstep⟩ | ⟨hl, hstep⟩ := step_cases s <;> rw [hstep] at h
  · obtain ⟨u, hu, hr⟩ := exec_keepsReport i (s.afterFetch i.length)
    have hb := bus_of_exec h
    rw [hu, Host.Outcome.next.injEq] at h
    subst h
    refine ⟨reportHonest_of_ok hr, ?_⟩
    have := length_add_opAccesses_le i (s.afterFetch i.length)
    have := length_codeReads_le s i.length
    rw [hb, List.length_append]
    change (s.codeReads i.length).length + _ ≤ 6
    omega
  · cases h
    exact ⟨by simp [State.reportHonest, hl], Nat.le_of_ble_eq_true rfl⟩

end Sys2Proof.Machine

open Sys2Proof Sys2Proof.Machine

/-- Settles O12: memory is kept canonical by the bus, the report and the bus are as every step leaves them. -/
theorem stepKeepsInvariant : Obligations.StepKeepsInvariant :=
  fun _ _ hs h => ⟨step_keeps_wf hs.1 h, step_report_and_bus h⟩

/-- Settles O9: the fetch takes exactly the instruction's bytes. -/
theorem stepRunsDecodedInstruction : Obligations.StepRunsDecodedInstruction :=
  fun _ i _ h => ⟨wellFormed_all i, step_of_decode h⟩

/-- Settles O10: the 256 bytes looked up, and the step of a refused one. -/
theorem illegalOpcodeIsReportedAndSkipped : Obligations.IllegalOpcodeIsReportedAndSkipped := by
  refine ⟨lookup_eq_none_iff, fun s hs => ?_⟩
  have hl := (lookup_eq_none_iff _).2 hs
  obtain ⟨i, rest, hd, -⟩ | ⟨-, hstep⟩ := step_cases s
  · rw [(decode_cons_ok hd).1] at hl
    cases hl
  · exact hstep

/-- Settles O13: the memory is the one given, the report is `ok`, and the bus holds at most the two vector reads. -/
theorem invariantHoldsAtReset : Obligations.InvariantHoldsAtReset := by
  refine ⟨⟨rfl, rfl, by decide⟩, fun mem hm => ⟨⟨hm, rfl, Nat.zero_le 6⟩, ?_⟩⟩
  rw [State.boot, State.resetCall_eq]
  exact ⟨hm, rfl, by simp⟩

/-- Settles O15: the code reads are the bus an instruction starts from. -/
theorem stepMakesItsTransactionsInOrder : Obligations.StepMakesItsTransactionsInOrder := by
  intro s t i rest hd h
  rw [step_of_decode hd] at h
  exact bus_of_exec h

/-- Settles O16: a step begins by clearing both fields. -/
theorem reportAndBusSteerNothing : Obligations.ReportAndBusSteerNothing := fun _ _ _ => rfl

/-- Settles O17: PC is past the instruction when it starts, and only the target-loading ones write it. -/
theorem sequentialInstructionsAdvancePC : Obligations.SequentialInstructionsAdvancePC := by
  intro s t i rest hd hseq h
  rw [step_of_decode hd] at h
  rw [(frame_of_exec h).pc.eq hseq]
  simp [State.afterFetch]

/-- Settles O50: 0xEA decodes to NOP, whose step is the fetch alone. -/
theorem nopHasNoEffect : Obligations.NopHasNoEffect := by
  refine fun s => ⟨rfl, fun hb => ?_⟩
  have hd : decode s.codeBytes = .ok (.nop, [s.byteAt (s.pc + 1), s.byteAt (s.pc + 2)]) := by
    rw [State.codeBytes, hb]
    rfl
  exact step_of_decode hd

/-- Settles O59: the fields of the state `reset()` answers. -/
theorem resetStateIsTheBootedCore : Obligations.ResetStateIsTheBootedCore := by
  refine ⟨fun s => ?_, rfl, rfl, rfl, rfl⟩
  rw [State.resetCall_eq, State.resetCall_eq]
  exact ⟨rfl, rfl, rfl⟩

end

section
/-! The ideal RAM under stores (spec/20_memory.md R61, R62, R78): canonical memories as functions of their contents, the
byte a store or a read-modify-write leaves, and the obligations that say so. -/

namespace Sys2Proof.Machine

/-! ### One list per contents -/

variable {m m' rest : Memory} {k lo : Nat} {v : Byte}

/-- A canonical memory lists no byte that it could leave out. -/
theorem Memory.read_head_ne (h : Memory.wfFrom lo ((k, v) :: rest) = true) :
    Memory.read ((k, v) :: rest) k ≠ Config.unlistedByte := by
  obtain ⟨-, -, hv, -⟩ := (Memory.wfFrom_cons ..).1 h
  rwa [Memory.read_cons, if_pos rfl]

theorem Memory.le_of_read_ne (h : Memory.wfFrom lo m = true) (hne : m.read k ≠ Config.unlistedByte) : lo ≤ k := by
  by_contra hlt
  exact hne (Memory.read_below h (by omega))

/-- Read below the first address they list and at it, two canonical memories that read alike begin with one cell. -/
theorem Memory.eq_of_read_eq (hm : Memory.wfFrom lo m = true) (hm' : Memory.wfFrom lo m' = true)
    (h : ∀ a < 65536, m.read a = m'.read a) : m = m' := by
  induction m generalizing m' lo with
  | nil =>
    obtain - | ⟨⟨k, v⟩, rest⟩ := m'
    · rfl
    · obtain ⟨-, hk, -⟩ := (Memory.wfFrom_cons ..).1 hm'
      exact absurd (h k hk).symm (Memory.read_head_ne hm')
  | cons cell rest ih =>
    obtain ⟨k, v⟩ := cell
    obtain ⟨-, hk, hv, hrest⟩ := (Memory.wfFrom_cons ..).1 hm
    have hne := Memory.read_head_ne hm
    obtain - | ⟨⟨k', v'⟩, rest'⟩ := m'
    · exact absurd (h k hk) hne
    · obtain ⟨-, hk', hv', hrest'⟩ := (Memory.wfFrom_cons ..).1 hm'
      have hne' := Memory.read_head_ne hm'
      have hle : k' ≤ k :=
        Memory.le_of_read_ne ((Memory.wfFrom_cons ..).2 ⟨le_rfl, hk', hv', hrest'⟩) (h k hk ▸ hne)
      have hge : k ≤ k' :=
        Memory.le_of_read_ne ((Memory.wfFrom_cons ..).2 ⟨le_rfl, hk, hv, hrest⟩) (h k' hk' ▸ hne')
      obtain rfl := Nat.le_antisymm hge hle
      have hval : v = v' := by simpa [Memory.read_cons] using h k hk
      rw [hval, ih hrest hrest' fun a ha => ?_]
      by_cases hak : k = a
      · subst hak
        rw [Memory.read_below hrest k.lt_succ_self, Memory.read_below hrest' k.lt_succ_self]
      · simpa [Memory.read_cons, hak] using h a ha

/-! ### The byte a store leaves -/

variable {i : Instr} {am : AddrMode} {s t : State}

theorem mem_of_store (ho : i.operand = .addr am) (hst : i.operation.isStore = true) (h : exec i s = .next t) :
    t.mem = s.mem.write (am.ea s).toNat (s.storedBy i.operation) := by
  rw [exec_eq_perform, ho] at h
  generalize i.operation = op at hst h
  cases op with
  | sta | stx | sty =>
    simp only [perform, AddrMode.store_eq, Host.Outcome.next.injEq] at h
    rw [← h]
    rfl
  | _ => exact absurd hst Bool.false_ne_true

theorem mem_of_modify (ho : i.operand = .addr am) (hmod : i.operation.isModify = true) (h : exec i s = .next t) :
    t.mem = s.mem.write (am.ea s).toNat (modified i.operation (s.byteAt (am.ea s)) s.p.c) := by
  rw [exec_eq_perform, ho] at h
  generalize i.operation = op at hmod h
  cases op with
  | inc | dec =>
    simp only [perform, stepMem_eq, Host.Outcome.next.injEq] at h
    rw [← h]
    rfl
  | asl | lsr | rol | ror =>
    simp only [perform, shiftMem_eq, Host.Outcome.next.injEq] at h
    rw [← h]
    rfl
  | _ => exact absurd hmod Bool.false_ne_true

/-- What a write at one address leaves there and elsewhere. -/
theorem byteAt_of_mem_eq_write {addr : Word} (h : t.mem = s.mem.write addr.toNat v) :
    (s.mem.wf = true → t.byteAt addr = v) ∧ ∀ b, b ≠ addr → t.byteAt b = s.byteAt b := by
  have hbyte : ∀ b, t.byteAt b = (s.memWrite addr v).byteAt b := fun b => congrArg (Memory.read · b.toNat) h
  exact ⟨fun hwf => (hbyte addr).trans (State.byteAt_memWrite_same s addr v hwf),
    fun b hb => (hbyte b).trans (State.byteAt_memWrite_other s v hb.symm)⟩

end Sys2Proof.Machine

open Sys2Proof Sys2Proof.Machine

/-- Settles O24, by induction on the one list with the other generalised. -/
theorem canonicalMemoriesThatReadAlikeAreEqual : Obligations.CanonicalMemoriesThatReadAlikeAreEqual :=
  fun _ _ hm hm' h => Memory.eq_of_read_eq hm hm' fun a ha =>
    (BitVec.toNat_ofNat a 16).trans (Nat.mod_eq_of_lt ha) ▸ h (BitVec.ofNat 16 a)

/-- Settles O22: memory afterwards is memory before with one write, at the effective address. -/
theorem storesTouchOnlyTheirAddress : Obligations.StoresTouchOnlyTheirAddress := by
  rintro i m s t ho hwf h addr rfl
  refine ⟨fun hst => (byteAt_of_mem_eq_write (mem_of_store ho hst h)).1 hwf,
    fun hmod => (byteAt_of_mem_eq_write (mem_of_modify ho hmod h)).1 hwf, fun hor => ?_⟩
  obtain hst | hmod := Bool.or_eq_true_iff.1 hor
  · exact (byteAt_of_mem_eq_write (mem_of_store ho hst h)).2
  · exact (byteAt_of_mem_eq_write (mem_of_modify ho hmod h)).2

end

section
/-! Overflow, subtraction and the instructions that load, store, transfer and subtract (spec/41_alu.md R151, R152;
42_load_store.md; 47_transfer_stack.md): the signed reading of the ALU's overflow, SBC as ADC's inverse, and the
obligations of the family. -/

namespace Sys2Proof.Machine

/-! ### The signed reading of a byte -/

theorem byte_msb_eq_iff (v w : Byte) : v.msb = w.msb ↔ (128 ≤ v.toNat ↔ 128 ≤ w.toNat) := by
  rw [BitVec.msb_eq_decide, BitVec.msb_eq_decide, decide_eq_decide]

theorem byte_toInt_cases (v : Byte) :
    (128 ≤ v.toNat ∧ v.toInt = v.toNat - 256) ∨ (v.toNat < 128 ∧ v.toInt = v.toNat) := by
  rw [BitVec.toInt_eq_toNat_cond]
  split <;> omega

theorem byte_toInt_not (v : Byte) : (~~~v).toInt = -v.toInt - 1 := by
  have hn : (~~~v).toNat = 255 - v.toNat := BitVec.toNat_not
  have hlt := v.isLt
  have hv := byte_toInt_cases v
  have hv' := byte_toInt_cases (~~~v)
  omega

/-! ### `AddC` and `SubB` -/

theorem addC_v_iff (a b : Byte) (cin : Bool) :
    (addC a b cin).v = true ↔ a.msb = b.msb ∧ a.msb ≠ (addC a b cin).r.msb := by
  simp [addC]

/-- Overflow is the signed sum out of range (R151). -/
theorem addC_v_iff_out_of_range (a b : Byte) (cin : Bool) :
    (addC a b cin).v = true ↔
      a.toInt + b.toInt + cin.toNat < -128 ∨ 127 < a.toInt + b.toInt + cin.toNat := by
  have hr := addC_r_toNat a b cin
  have hc := cin.toNat_le
  have ha := byte_toInt_cases a
  have hb := byte_toInt_cases b
  rw [addC_v_iff, ne_eq, byte_msb_eq_iff, byte_msb_eq_iff]
  omega

theorem subB_r_toNat (a b : Byte) (cin : Bool) :
    ((subB a b cin).r.toNat : Int) = ((a.toNat : Int) - b.toNat - (1 - (cin.toNat : Int))) % 256 := by
  rw [subB, BitVec.toNat_ofInt]
  exact Int.toNat_of_nonneg (Int.emod_nonneg _ (by decide))

/-- `SubB` adds the complement (R152). -/
theorem subB_eq_addC_not (a b : Byte) (cin : Bool) : subB a b cin = addC a (~~~b) cin := by
  have hb : (~~~b).toNat = 255 - b.toNat := BitVec.toNat_not
  have hlt := b.isLt
  have hs := subB_r_toNat a b cin
  have ha := addC_r_toNat a (~~~b) cin
  have hr : (subB a b cin).r = (addC a (~~~b) cin).r := BitVec.eq_of_toNat_eq (by omega)
  have hc : (subB a b cin).c = (addC a (~~~b) cin).c := decide_eq_decide.2 (by omega)
  have hv : (subB a b cin).v = (addC a (~~~b) cin).v := by
    change ((a.msb != b.msb) && (a.msb != (subB a b cin).r.msb)) =
      ((a.msb == (~~~b).msb) && (a.msb != (addC a (~~~b) cin).r.msb))
    rw [hr, BitVec.msb_not]
    cases a.msb <;> cases b.msb <;> simp
  exact (AluResult.mk.injEq ..).mpr ⟨hr, hc, hv⟩

theorem subB_v_iff (a b : Byte) (cin : Bool) :
    (subB a b cin).v = true ↔ a.msb ≠ b.msb ∧ a.msb ≠ (subB a b cin).r.msb := by
  simp [subB]

/-- Overflow is the signed difference out of range (R152): that of the sum with the complement. -/
theorem subB_v_iff_out_of_range (a b : Byte) (cin : Bool) :
    (subB a b cin).v = true ↔ a.toInt - b.toInt - (1 - (cin.toNat : Int)) < -128 ∨
      127 < a.toInt - b.toInt - (1 - (cin.toNat : Int)) := by
  rw [subB_eq_addC_not, addC_v_iff_out_of_range, byte_toInt_not]
  constructor <;> omega

/-- The sign rule of R152. -/
theorem subB_v (a b : Byte) (cin : Bool) :
    (subB a b cin).v = decide (a.getLsbD 7 ≠ b.getLsbD 7 ∧ a.getLsbD 7 ≠ (subB a b cin).r.getLsbD 7) := by
  rw [Bool.decide_and, decide_not, decide_not]; rfl

/-- What `AddC` does with a carry-in, `SubB` undoes with the other one (90_conflicts.md C4). -/
theorem subB_addC (a b : Byte) (q : Bool) : (subB (addC a b q).r b (!q)).r = a := by
  have hs := subB_r_toNat (addC a b q).r b (!q)
  have ha := addC_r_toNat a b q
  have hlt := a.isLt
  apply BitVec.eq_of_toNat_eq
  have hq : (!q).toNat = 1 - q.toNat := by cases q <;> rfl
  have hle := q.toNat_le
  omega

/-! ### Loads -/

theorem loadInto_flags (w : State → Byte → State) (hw : ∀ s v, (w s v).p = s.p) (m : AddrMode) (s : State) :
    let v := m.value s
    loadInto w m s =
      .next { w { s with bus := s.bus ++ m.operandReads s } v with
        p := { s.p with n := v.getLsbD 7, z := decide (v.toNat = 0) } } := by
  rw [loadInto_eq, State.setNZ, Flags.setNZ_eq, hw]
  rfl

end Sys2Proof.Machine

open Sys2Proof Sys2Proof.Machine

/-- Settles O26: the sum by definition, the two readings of V by the signs of the operands and the result. -/
theorem addCIsTheSumWithCarryAndOverflow : Obligations.AddCIsTheSumWithCarryAndOverflow := fun a b cin =>
  ⟨addC_r_toNat a b cin, decide_eq_true_iff, addC_v_iff a b cin, addC_v_iff_out_of_range a b cin⟩

/-- Settles O27: the difference by definition, the signed reading of V by that of the sum with the complement. -/
theorem subBIsTheDifferenceWithBorrowAndOverflow : Obligations.SubBIsTheDifferenceWithBorrowAndOverflow :=
  fun a b cin => ⟨subB_r_toNat a b cin, decide_eq_true_iff, subB_v_iff a b cin, subB_v_iff_out_of_range a b cin,
    subB_eq_addC_not a b cin⟩

/-- Settles O28: the second byte is the first one, so the ALU's inverse applies. -/
theorem adcThenSbcWithOtherCarryRestoresA : Obligations.AdcThenSbcWithOtherCarryRestoresA := by
  intro i j m k s t q hi hm hj hk hq ht hval
  rw [exec_of_form s hi hm] at ht
  have ha : t.a = (addC s.a (m.value s) q).r := by
    cases (arithInto_eq addC m s).symm.trans ht
    rw [← hq]
  refine ⟨_, (exec_of_form _ hj hk).trans (arithInto_eq subB k _), ?_⟩
  change (subB t.a _ (!q)).r = s.a
  rw [hval, ha, subB_addC]

/-- Settles O32: one load, into three registers. -/
theorem loadsSetTheirRegisterAndNZ : Obligations.LoadsSetTheirRegisterAndNZ := fun _ m s hm =>
  ⟨fun hop => (exec_of_form s hop hm).trans (loadInto_flags State.writeA (fun _ _ => rfl) m s),
    fun hop => (exec_of_form s hop hm).trans (loadInto_flags State.writeX (fun _ _ => rfl) m s),
    fun hop => (exec_of_form s hop hm).trans (loadInto_flags State.writeY (fun _ _ => rfl) m s)⟩

/-- Settles O33: one store, of three registers. -/
theorem storesWriteTheirRegister : Obligations.StoresWriteTheirRegister := fun _ m s hm =>
  ⟨fun hop => (exec_of_form s hop hm).trans (congrArg Host.Outcome.next (m.store_eq s.a s)),
    fun hop => (exec_of_form s hop hm).trans (congrArg Host.Outcome.next (m.store_eq s.x s)),
    fun hop => (exec_of_form s hop hm).trans (congrArg Host.Outcome.next (m.store_eq s.y s))⟩

/-- Settles O37: SBC is `subB` of A, the operand and C; it has no D to ask. -/
theorem sbcSubtractsWithBorrow : Obligations.SbcSubtractsWithBorrow := by
  intro i m s hop hm
  refine ⟨(subB s.a (m.value s) s.p.c).r, subB_r_toNat _ _ _, ?_⟩
  rw [exec_of_form s hop hm, ← subB_v s.a (m.value s) s.p.c]
  exact arithInto_flags subB m s

/-- Settles O44: each writes its one flag by definition. -/
theorem flagInstructionsWriteOneFlag : Obligations.FlagInstructionsWriteOneFlag :=
  fun _ => ⟨rfl, rfl, rfl, rfl, rfl, rfl, rfl⟩

/-- Settles O53: the flags are `SetNZ`'s. -/
theorem transfersCopyRegisters : Obligations.TransfersCopyRegisters := by
  intro s
  simp only [← Flags.setNZ_eq]
  exact ⟨rfl, rfl, rfl, rfl, rfl, rfl⟩

end

section
/-! Addressing (spec/40_dispatch_addressing.md R129-R141), branches, jumps and the host's accessors (10_state.md R38):
the operand of a decoded instruction as bytes in memory, the address each mode makes of it, and the obligations that
say so. -/

namespace Sys2Proof.Machine

variable {s : State} {i : Instr} {m : AddrMode} {rest : List Byte}

/-! ### Widening -/

@[simp] theorem zext16_toNat (v : Byte) : (zext16 v).toNat = v.toNat := by
  have := v.isLt
  rw [zext16, BitVec.toNat_setWidth, Nat.mod_eq_of_lt (by omega)]

theorem zext16_add_one_toNat (v : Byte) : (zext16 v + 1).toNat = v.toNat + 1 := by
  have := v.isLt
  rw [BitVec.toNat_add, zext16_toNat]
  exact Nat.mod_eq_of_lt (show v.toNat + 1 < 65536 by omega)

/-- Widening with the sign (R9) is the library's, so it keeps the signed value. -/
theorem sext16_eq_ofInt : ∀ v : Byte, sext16 v = BitVec.ofInt 16 v.toInt := by decide

theorem add_sext16 (w : Word) (v : Byte) : w + sext16 v = BitVec.ofInt 16 (w.toNat + v.toInt) := by
  rw [sext16_eq_ofInt, BitVec.ofInt_add, BitVec.ofInt_natCast, BitVec.ofNat_toNat, BitVec.setWidth_eq]

/-! ### The operand of a decoded instruction -/

theorem mode_of_operand (h : i.operand = .addr m) : i.mode = m.mode := congrArg Operand.mode h

theorem length_of_operand (h : i.operand = .addr m) : i.length = m.mode.length :=
  congrArg Mode.length (mode_of_operand h)

/-- The operand's bytes stand after the opcode byte (R92). -/
theorem bytes_of_decode (hd : decode s.codeBytes = .ok (i, rest)) (ho : i.operand = .addr m) :
    [s.byteAt (s.pc + 1), s.byteAt (s.pc + 2)] = m.bytes ++ rest := by
  obtain ⟨-, -, hb⟩ := decode_cons_ok hd
  rwa [ho] at hb

theorem byte_of_bytes {b c v : Byte} (h : [b, c] = [v] ++ rest) : b = v := (List.cons.inj h).1

theorem word_of_bytes {b c : Byte} {w : Word} (h : [b, c] = [lowByte w, highByte w] ++ rest) :
    w.toNat = b.toNat + 256 * c.toNat := by
  obtain ⟨hb, h⟩ := List.cons.inj h
  rw [hb, (List.cons.inj h).1, ← toNat_eq_bytes]

/-! ### The effective address -/

/-- The little-endian word at two addresses, as a number. -/
theorem memRead16_toNat (s : State) (lo hi : Word) :
    (s.memRead16 lo hi).1.toNat = (s.mem.read lo.toNat).toNat + 256 * (s.mem.read hi.toNat).toNat := by
  rw [State.memRead16_eq, joinBytes_toNat]
  rfl

/-- The address of each mode whose rule has no parameter, in the integer arithmetic of R129-R139. -/
theorem ea_toNat (hb : [s.byteAt (s.pc + 1), s.byteAt (s.pc + 2)] = m.bytes ++ rest) :
    ∀ n, s.tableAddress m.mode = some n → (m.ea (s.afterFetch m.mode.length)).toNat = n := by
  intro n hn
  cases m with
  | imm v =>
    cases hn
    change (s.pc + 2 - 1).toNat = _
    rw [show s.pc + 2 - 1 = s.pc + 1 by bv_omega]
    rfl
  | zp v =>
    cases hn
    exact (zext16_toNat v).trans (congrArg _ (byte_of_bytes hb).symm)
  | zpx v | zpy v =>
    cases hn
    rw [byte_of_bytes hb]
    exact zext16_toNat _
  | abs w =>
    cases hn
    exact word_of_bytes hb
  | absx w | absy w =>
    cases hn
    rw [← word_of_bytes hb]
    exact (BitVec.toNat_add ..).trans (by rw [zext16_toNat]; rfl)
  | ind w => cases hn
  | indx v =>
    cases hn
    rw [byte_of_bytes hb]
    refine (memRead16_toNat _ _ _).trans ?_
    rw [zext16_add_one_toNat, zext16_toNat]
    rfl
  | indy v =>
    cases hn
    rw [byte_of_bytes hb]
    refine (BitVec.toNat_add ..).trans ?_
    rw [memRead16_toNat, zext16_add_one_toNat, zext16_toNat, zext16_toNat]
    rfl
  | rel v =>
    cases hn
    rw [byte_of_bytes hb]
    refine (congrArg BitVec.toNat (add_sext16 (s.pc + 2) v)).trans ?_
    rw [BitVec.toNat_ofInt]
    congr 1
    have : (s.pc + 2).toNat = (s.pc.toNat + 2) % 65536 := rfl
    omega

theorem modes_zpy {op : Operation} (h : Mode.zpy ∈ op.modes) : op = .ldx ∨ op = .stx := by
  cases op with
  | ldx => exact .inl rfl
  | stx => exact .inr rfl
  | _ => exact absurd h (by decide)

theorem modes_rel {op : Operation} (h : Mode.rel ∈ op.modes) : op.isBranch = true := by
  cases op with
  | bcc | bcs | beq | bne | bmi | bpl | bvc | bvs => rfl
  | _ => exact absurd h (by decide)

/-- An immediate operand's address is that of the byte after the opcode (R129). -/
theorem ea_imm (s : State) (v : Byte) : (AddrMode.imm v).ea (s.afterFetch 2) = s.pc + 1 := by
  change s.pc + 2 - 1 = s.pc + 1
  bv_omega

/-! ### The pointer of JMP (ind) -/

/-- The mask of R136: the high byte of the one word before the low byte of the other. -/
theorem mask_bytes (w w' : Word) : (w &&& 0xFF00) ||| (w' &&& 0x00FF) = joinBytes (lowByte w') (highByte w) := by
  apply BitVec.eq_of_getLsbD_eq
  intro k hk
  simp only [joinBytes, lowByte, highByte, BitVec.getLsbD_append]
  interval_cases k <;> simp

/-- With the page kept, the second pointer byte is read at the pointer's page and the next address's low byte (R136). -/
theorem indHighAddr_true_toNat (ptr : Word) :
    (indHighAddr true ptr).toNat = ptr.toNat / 256 * 256 + (ptr.toNat + 1) % 256 := by
  have h : indHighAddr true ptr = joinBytes (lowByte (ptr + 1)) (highByte ptr) := mask_bytes ptr (ptr + 1)
  have hadd : (ptr + 1).toNat = (ptr.toNat + 1) % 65536 := rfl
  rw [h, joinBytes_toNat, lowByte_toNat, highByte_toNat, hadd]
  omega

theorem indHighAddr_true_eq {ptr : Word} (h : ptr.toNat % 256 ≠ 0xFF) :
    indHighAddr true ptr = indHighAddr false ptr := by
  apply BitVec.eq_of_toNat_eq
  have hf : (indHighAddr false ptr).toNat = (ptr.toNat + 1) % 65536 := rfl
  have := ptr.isLt
  rw [indHighAddr_true_toNat, hf]
  omega

/-! ### The accessors -/

/-- A register or flag that does not overlap the one written reads as before (R38). -/
theorem State.set_keeps (s : State) (r q : HostReg) (v : Nat) :
    Kept (r.overlaps q) (s.get q) ((s.set r v).get q) := by
  cases r <;> cases q <;> rfl

end Sys2Proof.Machine

open Sys2Proof Sys2Proof.Machine

/-- Settles O29: the address from the operand's bytes in memory, the two last claims from the table of R95. -/
theorem effectiveAddressOfEachMode : Obligations.EffectiveAddressOfEachMode := by
  intro s i rest m hd ho
  refine ⟨?_, fun hz => modes_zpy (hz ▸ mode_mem_modes i), fun hr => modes_rel (hr ▸ mode_mem_modes i)⟩
  rw [mode_of_operand ho, length_of_operand ho]
  exact ea_toNat (bytes_of_decode hd ho)

/-- Settles O30: for Immediate the byte at PC + 1 is the operand's byte; for the others it is the rule. -/
theorem operandValueIsTheByteAtItsAddress : Obligations.OperandValueIsTheByteAtItsAddress := by
  intro s i rest m hd ho
  rw [mode_of_operand ho, length_of_operand ho, AddrMode.value_eq]
  cases m with
  | imm v =>
    have hea := ea_imm s v
    exact ⟨(byte_of_bytes (bytes_of_decode hd ho)).symm.trans (congrArg s.byteAt hea.symm), fun _ => hea⟩
  | _ => exact ⟨rfl, fun h => by cases h⟩

/-- Settles O31: the two settings read the low byte alike, and the high byte at the two addresses of R136. -/
theorem indirectPointerUnderBothSettings : Obligations.IndirectPointerUnderBothSettings := by
  refine fun ptr s => ⟨rfl, memRead16_toNat s ptr _, ?_, fun h => ?_⟩
  · rw [State.resolveInd, memRead16_toNat, indHighAddr_true_toNat]
  · rw [State.resolveInd, State.resolveInd, indHighAddr_true_eq h]

/-- Settles O43: only a branch has the operand, and its target is the sum with the offset's signed value. -/
theorem branchesLoadTargetOnCondition : Obligations.BranchesLoadTargetOnCondition := by
  intro i rel8 s ho
  have hm : i.mode = .rel := mode_of_operand ho
  have hmode : Mode.rel ∈ i.operation.modes := hm ▸ mode_mem_modes i
  dsimp only
  rw [exec_of_form s rfl ho, ← add_sext16]
  generalize i.operation = op at hmode
  cases op with
  | bcc => exact branchIf_eq (fun f => !f.c) rel8 s
  | bcs => exact branchIf_eq (fun f => f.c) rel8 s
  | beq => exact branchIf_eq (fun f => f.z) rel8 s
  | bne => exact branchIf_eq (fun f => !f.z) rel8 s
  | bmi => exact branchIf_eq (fun f => f.n) rel8 s
  | bpl => exact branchIf_eq (fun f => !f.n) rel8 s
  | bvc => exact branchIf_eq (fun f => !f.v) rel8 s
  | bvs => exact branchIf_eq (fun f => f.v) rel8 s
  | _ => exact absurd hmode (by decide)

/-- Settles O45: the effective address and the pointer reads of the two modes. -/
theorem jumpsLoadPC : Obligations.JumpsLoadPC := fun w s => ⟨rfl, jumpTo_eq (.ind w) s⟩

/-- Settles O60: a register reads back what was written mod its width by definition, P by the packed byte's inverse,
a flag as the lowest bit. -/
theorem hostAccessorsReadAndWriteOneRegister : Obligations.HostAccessorsReadAndWriteOneRegister := by
  intro s r v
  refine ⟨?_, fun q hq => (s.set_keeps r q v).eq hq, ?_⟩
  · cases r with
    | a | x | y | sp | pc => rfl
    | p => exact congrArg BitVec.toNat (Flags.toByte_ofByte _)
    | _ => exact (Nat.toNat_testBit v 0).trans (by rw [Nat.pow_zero, Nat.div_one]; rfl)
  · cases r <;> exact ⟨rfl, rfl, rfl⟩

end
